-- ==== Sys2Proof/Word.lean ====
section
/-! DEFINITION. The byte, the candidate frame and the raw frame (spec/00_scope.md R9, spec/90_conflicts.md C8). -/

namespace Sys2Proof

/-- A byte: an unsigned 8-bit value (R9). -/
abbrev Byte := BitVec 8

/-- A candidate frame: any finite sequence of bytes, offset 0 first (R9, R140). -/
abbrev Candidate := List Byte

/-- The source's RawFrame: a sequence of exactly 20 bytes, what a candidate is once the length check has passed
(spec/90_conflicts.md C8). -/
structure RawFrame where
  bytes : List Byte
  len : bytes.length = 20
deriving DecidableEq, Repr

end Sys2Proof
end

