-- ==== Sys2Proof/Syntax.lean ====
section
/-! DEFINITION. The operations of the block, one constructor per row of spec/opcode_table.json (spec/30_encoding.md R81),
and what an environment can present to it: words of the formats (R70), port samples (spec/10_state.md R25) and calls of the
operations that have no encoding. -/

namespace Sys2Proof

/-- The formats of spec/opcode_table.json (R81). -/
inductive Format where
  | frame | scode | check | field | top | step | err | status
deriving DecidableEq, Repr

/-- The operations of the block. A docstring names the row and the rule that gives its semantics. -/
inductive Instr where
  /-- AE1_HEALTH (R71): operands are the letters t s c b x y z k of the pattern. -/
  | ae1Health (timestamp : BitVec 32) (scode : Byte) (temp batt wx wy wz : BitVec 16) (csum : Byte)
  /-- SCODE_SAFE (R74, R127). -/
  | scodeSafe
  /-- SCODE_NOMINAL (R74, R127). -/
  | scodeNominal
  /-- SCODE_SCIENCE (R74, R127). -/
  | scodeScience
  /-- SCODE_UNKNOWN (R74, R127): the default row, with the code byte itself. -/
  | scodeUnknown (scode : Byte)
  /-- LENCHK (R100). -/
  | lenchk (cand : Candidate)
  /-- XORSUM (R101). -/
  | xorsum (cand : Candidate)
  /-- CSCMP (R102): operands `xsum` and the 20-byte frame. -/
  | cscmp (xsum : Byte) (frame : RawFrame)
  /-- SYNCMATCH (R103). -/
  | syncmatch (frame : RawFrame)
  /-- TYPEMATCH (R104). -/
  | typematch (frame : RawFrame)
  /-- VALIDATE (R105). -/
  | validate (cand : Candidate)
  /-- EXT_TS (R120). -/
  | extTs (frame : RawFrame)
  /-- EXT_ST (R121). -/
  | extSt (frame : RawFrame)
  /-- EXT_TEMP (R122). -/
  | extTemp (frame : RawFrame)
  /-- EXT_BATT (R123). -/
  | extBatt (frame : RawFrame)
  /-- EXT_WX (R124). -/
  | extWx (frame : RawFrame)
  /-- EXT_WY (R125). -/
  | extWy (frame : RawFrame)
  /-- EXT_WZ (R126). -/
  | extWz (frame : RawFrame)
  /-- SXLATE (R127). -/
  | sxlate (scode : Byte)
  /-- DECODE (R128): its operand is a validated frame (WellFormed.lean). -/
  | decode (frame : RawFrame)
  /-- PARSE (R140). -/
  | parse (cand : Candidate)
  /-- RESET (R142). -/
  | reset
  /-- IDLE (R143). -/
  | idle
  /-- BYTE (R144). -/
  | byte (inData : Byte)
  /-- LAST (R145). -/
  | last (inData : Byte)
  /-- ERR_NONE (R76). -/
  | errNone
  /-- ERR_LEN (R76, R161). -/
  | errLen
  /-- ERR_CSUM (R76, R162). -/
  | errCsum
  /-- ERR_SYNC (R76, R163). -/
  | errSync
  /-- ERR_FTYPE (R76, R164). -/
  | errFtype
  /-- STATUS_SAFE (R75). -/
  | statusSafe
  /-- STATUS_NOMINAL (R75). -/
  | statusNominal
  /-- STATUS_SCIENCE (R75). -/
  | statusScience
  /-- STATUS_UNKNOWN (R75). -/
  | statusUnknown
deriving DecidableEq, Repr

/-- The names of the operations that have no encoding (the rows CHECK, FIELD and TOP of R81). -/
inductive OpName where
  | lenchk | xorsum | cscmp | syncmatch | typematch | validate
  | extTs | extSt | extTemp | extBatt | extWx | extWy | extWz
  | sxlate | decode | parse
deriving DecidableEq, Repr

/-- One sample of the input ports (R25). -/
structure PortIn where
  rst : Bool
  inValid : Bool
  inLast : Bool
  inData : Byte
deriving DecidableEq, Repr

/-- What the environment can present to the machine at one step (logs 1 and 12). -/
inductive Presented where
  /-- A sample of the input ports, the STEP format (R141). -/
  | port (p : PortIn)
  /-- A candidate in the FRAME format (R71). -/
  | frame (cand : Candidate)
  /-- A status code byte (R74). -/
  | scode (code : Byte)
  /-- A code read off the `STATUS` port (R75). -/
  | status (code : BitVec 2)
  /-- A code read off the `ERR` port (R76). -/
  | err (code : BitVec 3)
  /-- A call of an operation without an encoding: its name and its operand bytes. -/
  | call (op : OpName) (operand : List Byte)
deriving DecidableEq, Repr

/-- The table's format of an operation (R81). -/
def Instr.format : Instr → Format
  | .ae1Health .. => .frame
  | .scodeSafe | .scodeNominal | .scodeScience | .scodeUnknown _ => .scode
  | .lenchk _ | .xorsum _ | .cscmp .. | .syncmatch _ | .typematch _ | .validate _ => .check
  | .extTs _ | .extSt _ | .extTemp _ | .extBatt _ | .extWx _ | .extWy _ | .extWz _ => .field
  | .sxlate _ | .decode _ | .parse _ => .top
  | .reset | .idle | .byte _ | .last _ => .step
  | .errNone | .errLen | .errCsum | .errSync | .errFtype => .err
  | .statusSafe | .statusNominal | .statusScience | .statusUnknown => .status

/-- The table's format of what is presented. -/
def Presented.format : Presented → Format
  | .port _ => .step
  | .frame _ => .frame
  | .scode _ => .scode
  | .status _ => .status
  | .err _ => .err
  | .call op _ =>
    match op with
    | .lenchk | .xorsum | .cscmp | .syncmatch | .typematch | .validate => .check
    | .extTs | .extSt | .extTemp | .extBatt | .extWx | .extWy | .extWz => .field
    | .sxlate | .decode | .parse => .top

end Sys2Proof
end

