-- ==== Sys2Proof/Machine/Values.lean ====
section
/-! DEFINITION. The values the operations of Layer F compute and return: error kinds, status variants, check flags, the
health record (spec/00_scope.md R12, R13; spec/10_state.md R32 to R34; spec/30_encoding.md R74 to R76). -/

namespace Sys2Proof

/-- The four error kinds of the source (R161 to R164). -/
inductive ParseError where
  | inputTypeOrLength | checksum | syncWord | frameType
deriving DecidableEq, Repr

/-- The names of the `ERR` codes 0 to 4 (R76). -/
inductive ErrCode where
  | errNone | errLen | errCsum | errSync | errFtype
deriving DecidableEq, Repr

/-- The four status variants (R74). -/
inductive StatusVariant where
  | safe | nominal | science | unknown
deriving DecidableEq, Repr

/-- The two variants of a result, `Ok(v)` and `Err(e)` (R12). -/
inductive Result (α : Type) where
  | ok (v : α)
  | err (e : ParseError)
deriving DecidableEq, Repr

/-- Which of the four checks of R34 a flag belongs to. -/
inductive CheckName where
  | len | csum | sync | type
deriving DecidableEq, Repr

/-- The four check flags (R34). The last three are not evaluated when `len_ok` is false (R105). -/
structure CheckFlags where
  lenOk : Bool
  csumOk : Option Bool
  syncOk : Option Bool
  typeOk : Option Bool
deriving DecidableEq, Repr

/-- The access widths of the frame space (R56). -/
inductive Width where
  | one | two | four
deriving DecidableEq, Repr

/-- A width in bytes. -/
def Width.bytes : Width → Nat
  | .one => 1
  | .two => 2
  | .four => 4

/-- A width in bits. -/
def Width.bits : Width → Nat
  | .one => 8
  | .two => 16
  | .four => 32

/-- A row of the extractor's table: offset, width, signedness, and that the field lies in the frame (R129, R58). -/
structure FieldRow where
  off : Nat
  width : Width
  signed : Bool
  inFrame : off + width.bytes ≤ 20
deriving DecidableEq, Repr

/-- The seven fields of the extractor (R129). -/
inductive FieldId where
  | ts | st | temp | batt | wx | wy | wz
deriving DecidableEq, Repr

/-- What an extraction returns: the bits of the field, at the field's own width, and how they are read (R56, R129). -/
structure FieldValue where
  width : Width
  bits : BitVec width.bits
  signed : Bool
deriving DecidableEq, Repr

/-- The health record (R32): the field bits, unchanged, and the status variant. -/
structure HealthRecord where
  timestamp : BitVec 32
  status : StatusVariant
  temperatureC : BitVec 16
  batteryMv : BitVec 16
  wheelX : BitVec 16
  wheelY : BitVec 16
  wheelZ : BitVec 16
deriving DecidableEq, Repr

/-- `PARSE_OUT(F) = (ok, err, xsum, record)` (R140). -/
structure ParseOut where
  ok : Bool
  err : ErrCode
  xsum : Byte
  record : HealthRecord
deriving DecidableEq, Repr

/-- What an operation of Layer F returns to its caller (log 3). -/
inductive Ret where
  /-- A check: its flag, and the error it raises when the flag is false (R100, R102 to R104). -/
  | check (name : CheckName) (flag : Bool) (raised : Option ParseError)
  /-- XORSUM (R101). -/
  | xsum (value : Byte)
  /-- VALIDATE: the flags and `Ok(F)` or `Err(e)` (R105). -/
  | validated (flags : CheckFlags) (result : Result RawFrame)
  /-- An extraction (R120 to R126). -/
  | field (value : FieldValue)
  /-- A status variant (R127). -/
  | variant (value : StatusVariant)
  /-- DECODE (R128). -/
  | record (value : HealthRecord)
  /-- PARSE, and the same as the outputs the hardware presents (R140). -/
  | parsed (result : Result HealthRecord) (out : ParseOut)
  /-- What a code of the `ERR` port tells: the cause, or none (R76). -/
  | cause (error : Option ParseError)
deriving DecidableEq, Repr

end Sys2Proof
end

