-- ==== Sys2Proof/Machine/Codes.lean ====
section
/-! DEFINITION. The small codes: the status table, the `STATUS` codes and the `ERR` codes
(spec/30_encoding.md R74 to R76, spec/41_decoder.md R127). -/

namespace Sys2Proof

/-- SXLATE: the status code's variant, total on all 256 codes (R127). -/
def sxlate (scode : Byte) : StatusVariant :=
  if scode = 0 then .safe
  else if scode = 1 then .nominal
  else if scode = 2 then .science
  else .unknown

/-- The `STATUS` format (R75). -/
def StatusVariant.code : StatusVariant → BitVec 2
  | .safe => 0b00
  | .nominal => 0b01
  | .science => 0b10
  | .unknown => 0b11

/-- The variant a `STATUS` code stands for; all four patterns are used (R75). -/
def statusOfCode (c : BitVec 2) : StatusVariant :=
  if c = 0b00 then .safe
  else if c = 0b01 then .nominal
  else if c = 0b10 then .science
  else .unknown

/-- The `ERR` format (R76). -/
def ErrCode.code : ErrCode → BitVec 3
  | .errNone => 0b000
  | .errLen => 0b001
  | .errCsum => 0b010
  | .errSync => 0b011
  | .errFtype => 0b100

/-- The code of an error kind (R76). -/
def ParseError.errCode : ParseError → ErrCode
  | .inputTypeOrLength => .errLen
  | .checksum => .errCsum
  | .syncWord => .errSync
  | .frameType => .errFtype

/-- The cause a code names, none for `ERR_NONE` (R76). -/
def ErrCode.cause : ErrCode → Option ParseError
  | .errNone => none
  | .errLen => some .inputTypeOrLength
  | .errCsum => some .checksum
  | .errSync => some .syncWord
  | .errFtype => some .frameType

end Sys2Proof
end

