-- ==== Sys2Proof/Config.lean ====
section
/-! DEFINITION. The hardwired constants of spec/00_scope.md R7 and R8, and the match and mask of spec/30_encoding.md R72.
The spec leaves no value of any operation open, so there is no free value here (INVENTORY.md). -/

namespace Sys2Proof.Config

/-- `FRAME_LEN`: bytes in a frame, exactly (R7). -/
abbrev frameLen : Nat := 20

/-- `CSUM_LAST + 1`: the checksum covers the offsets below this one, bytes 0 to 18 (R7). -/
abbrev csumSpan : Nat := 19

/-- `SYNC_WORD` (R7). -/
abbrev syncWord : BitVec 16 := 0xAE5F

/-- `TYPE_ID` (R7). -/
abbrev typeId : Byte := 0x1B

/-- `PAYLOAD_LEN`, 15 (R7). -/
abbrev payloadLen : Byte := 0x0F

/-- `CNT_SAT`: the count that means "more than 20" (R8, R24). -/
abbrev cntSat : Nat := 21

/-- The `FRAME` format's mask over the 160-bit frame word (R72). -/
abbrev frameMask : BitVec 160 := 0xFFFFFFFF00000000000000000000000000000000

/-- The `FRAME` format's match (R72). -/
abbrev frameMatch : BitVec 160 := 0xAE5F1B0F00000000000000000000000000000000

end Sys2Proof.Config
end

