-- ==== Sys2Proof/Machine/Operands.lean ====
section
/-! DEFINITION. How operands are assembled from frame bytes: big-endian reads, the frame word, the extractor's table
(spec/00_scope.md R10 to R12, spec/20_memory.md R52 to R56, spec/30_encoding.md R73, spec/41_decoder.md R120 to R129). -/

namespace Sys2Proof

/-- `F[i]`: the byte at an offset of a 20-byte frame (R9). -/
def RawFrame.byte (f : RawFrame) (i : Fin 20) : Byte :=
  f.bytes[i.val]'(by rw [f.len]; exact i.isLt)

/-- `MemRead(off, n)`: the most significant byte at the lowest offset (R52), in the three widths of R56. -/
def memRead (f : RawFrame) (w : Width) (off : Nat) (h : off + w.bytes ≤ 20) : BitVec w.bits :=
  match w, h with
  | .one, h => f.byte ⟨off, h⟩
  | .two, h => (f.byte ⟨off, Nat.lt_of_succ_lt h⟩ ++ f.byte ⟨off + 1, h⟩ : BitVec (8 + 8))
  | .four, h =>
    (f.byte ⟨off, by simp only [Width.bytes] at h; omega⟩ ++
      f.byte ⟨off + 1, by simp only [Width.bytes] at h; omega⟩ ++
      f.byte ⟨off + 2, by simp only [Width.bytes] at h; omega⟩ ++
      f.byte ⟨off + 3, by simp only [Width.bytes] at h; omega⟩ : BitVec (8 + 8 + 8 + 8))

/-- The frame word `W = F[0] ∥ … ∥ F[19]` (R10). -/
def frameWord (f : RawFrame) : BitVec 160 :=
  f.bytes.foldl (fun w b => w <<< 8 ||| b.setWidth 160) 0#160

/-- The extractor's table (R129). -/
def fieldRow : FieldId → FieldRow
  | .ts => ⟨4, .four, false, by decide⟩
  | .st => ⟨8, .one, false, by decide⟩
  | .temp => ⟨9, .two, true, by decide⟩
  | .batt => ⟨11, .two, false, by decide⟩
  | .wx => ⟨13, .two, true, by decide⟩
  | .wy => ⟨15, .two, true, by decide⟩
  | .wz => ⟨17, .two, true, by decide⟩

/-- `EXTRACT(F, offset, width, signed)` (R129): the field's bits, with its signedness. -/
def extract (f : RawFrame) (r : FieldRow) : FieldValue :=
  { width := r.width, bits := memRead f r.width r.off r.inFrame, signed := r.signed }

/-- The number a field's bits are read as: `sint` if signed, else `uint` (R11, R129). -/
def FieldValue.value (v : FieldValue) : Int :=
  if v.signed then v.bits.toInt else v.bits.toNat

/-- The bits of one field, by the extractor's table, at the field's own width (R56). -/
def fieldBits (f : RawFrame) (i : FieldId) : BitVec (fieldRow i).width.bits :=
  (extract f (fieldRow i)).bits

/-- EXT_TS's bits (R120). -/
def extTs (f : RawFrame) : BitVec 32 := fieldBits f .ts
/-- EXT_ST's bits (R121). -/
def extSt (f : RawFrame) : Byte := fieldBits f .st
/-- EXT_TEMP's bits (R122). -/
def extTemp (f : RawFrame) : BitVec 16 := fieldBits f .temp
/-- EXT_BATT's bits (R123). -/
def extBatt (f : RawFrame) : BitVec 16 := fieldBits f .batt
/-- EXT_WX's bits (R124). -/
def extWx (f : RawFrame) : BitVec 16 := fieldBits f .wx
/-- EXT_WY's bits (R125). -/
def extWy (f : RawFrame) : BitVec 16 := fieldBits f .wy
/-- EXT_WZ's bits (R126). -/
def extWz (f : RawFrame) : BitVec 16 := fieldBits f .wz

/-- A 16-bit value as two bytes, most significant first (R52). -/
def bytes16 (v : BitVec 16) : List Byte := [v.extractLsb' 8 8, v.extractLsb' 0 8]

/-- A 32-bit value as four bytes, most significant first (R52). -/
def bytes32 (v : BitVec 32) : List Byte :=
  [v.extractLsb' 24 8, v.extractLsb' 16 8, v.extractLsb' 8 8, v.extractLsb' 0 8]

/-- Bytes 0 to 18 of a health packet with these field values (R71). -/
def healthPrefix (timestamp : BitVec 32) (scode : Byte) (temp batt wx wy wz : BitVec 16) : List Byte :=
  bytes16 Config.syncWord ++ [Config.typeId, Config.payloadLen] ++ bytes32 timestamp ++ [scode] ++
    bytes16 temp ++ bytes16 batt ++ bytes16 wx ++ bytes16 wy ++ bytes16 wz

/-- The twenty bytes of a health packet with these operands (R71). -/
def healthBytes (timestamp : BitVec 32) (scode : Byte) (temp batt wx wy wz : BitVec 16) (csum : Byte) : List Byte :=
  healthPrefix timestamp scode temp batt wx wy wz ++ [csum]

end Sys2Proof
end

