-- ==== Sys2Proof/Machine/Flags.lean ====
section
/-! DEFINITION. The checksum generator, the four check flags and their priority, VALIDATE, DECODE and PARSE as pure functions
(spec/10_state.md R33, R34; spec/40_validator.md R100 to R105; spec/41_decoder.md R128; spec/42_parse_and_port.md R140). -/

namespace Sys2Proof

/-- XORSUM: the XOR of the first `min(n, 19)` bytes, from `0x00` (R101). -/
def xorsum (cand : Candidate) : Byte :=
  (cand.take Config.csumSpan).foldl (fun x b => x ^^^ b) 0x00

/-- `len_ok` (R100). -/
def lenOk (cand : Candidate) : Bool := cand.length == Config.frameLen

/-- `csum_ok` (R102). -/
def csumOk (xsum : Byte) (f : RawFrame) : Bool := xsum == f.byte 19

/-- `sync_ok` (R103): one big-endian 16-bit comparison at offset 0. -/
def syncOk (f : RawFrame) : Bool := memRead f .two 0 (by decide) == Config.syncWord

/-- `type_ok` (R104). -/
def typeOk (f : RawFrame) : Bool := f.byte 2 == Config.typeId && f.byte 3 == Config.payloadLen

/-- What a check raises: its error iff its flag is false (R100, R102 to R104). -/
def raisedBy (e : ParseError) (flag : Bool) : Option ParseError := if flag then none else some e

/-- The flags of a candidate: the last three only when the length is 20 (R105). -/
def checkFlags (cand : Candidate) : CheckFlags :=
  if h : cand.length = Config.frameLen then
    let f : RawFrame := ⟨cand, h⟩
    { lenOk := true, csumOk := some (csumOk (xorsum cand) f), syncOk := some (syncOk f), typeOk := some (typeOk f) }
  else
    { lenOk := false, csumOk := none, syncOk := none, typeOk := none }

/-- The priority choice over the four flags: the first failing check (R105, R167). -/
def firstFailing (lenOk csumOk syncOk typeOk : Bool) : Option ParseError :=
  if !lenOk then some .inputTypeOrLength
  else if !csumOk then some .checksum
  else if !syncOk then some .syncWord
  else if !typeOk then some .frameType
  else none

/-- VALIDATE: the checks in the order length, checksum, sync, type, ending at the first that fails (R105). -/
def validate (cand : Candidate) : Result RawFrame :=
  if h : cand.length = Config.frameLen then
    let f : RawFrame := ⟨cand, h⟩
    if csumOk (xorsum cand) f then
      if syncOk f then
        if typeOk f then .ok f
        else .err .frameType
      else .err .syncWord
    else .err .checksum
  else .err .inputTypeOrLength

/-- DECODE's record of a frame: the seven extractions and the translation (R128). -/
def recordOf (f : RawFrame) : HealthRecord :=
  { timestamp := extTs f
    status := sxlate (extSt f)
    temperatureC := extTemp f
    batteryMv := extBatt f
    wheelX := extWx f
    wheelY := extWy f
    wheelZ := extWz f }

/-- The null record (R33). -/
def nullRecord : HealthRecord :=
  { timestamp := 0, status := .unknown, temperatureC := 0, batteryMv := 0, wheelX := 0, wheelY := 0, wheelZ := 0 }

/-- PARSE: VALIDATE, then DECODE of the frame it returns (R140). -/
def parse (cand : Candidate) : Result HealthRecord :=
  match validate cand with
  | .err e => .err e
  | .ok f => .ok (recordOf f)

/-- `PARSE_OUT`: PARSE as the outputs the hardware presents (R140). -/
def parseOut (cand : Candidate) : ParseOut :=
  match parse cand with
  | .ok r => { ok := true, err := .errNone, xsum := xorsum cand, record := r }
  | .err e => { ok := false, err := e.errCode, xsum := xorsum cand, record := nullRecord }

end Sys2Proof
end

