-- ==== Sys2Proof/Machine/State.lean ====
section
/-! DEFINITION. The machine's state as plain data (spec/10_state.md R22 to R38), its faults and refusals, and reset. -/

namespace Sys2Proof.Machine

/-- The frame buffer `FB[0..19]` as (address, byte) cells, addresses strictly rising, none holding what an unlisted address
reads as (R26, R50, log 9). -/
abbrev Memory := List Host.Cell

/-- What an unlisted address of the frame buffer reads as: the reset value of every `FB[i]` (R38). -/
abbrev Memory.unlisted : Byte := 0x00

/-- The canonical form of a frame buffer, within the address space 0 to 19 (R50). -/
abbrev Memory.wf (m : Memory) : Prop :=
  List.Pairwise (fun x y => x.1 < y.1) m ∧ ∀ c ∈ m, c.1 < 20 ∧ c.2 ≠ Memory.unlisted

/-- The state. The first fourteen fields are the spec's 300 bits (R22); the last two are the model's own. -/
structure State where
  /-- `FB[0..19]` (R26). -/
  fb : Memory
  /-- `CNT`, 5 bits, legal values 0 to 21 (R24, log 7). -/
  cnt : Fin 22
  /-- `ACC` (R27). -/
  acc : Byte
  /-- `DONE` (R28). -/
  done : Bool
  /-- `OK` (R29). -/
  ok : Bool
  /-- `ERR`, 3 bits (R30, R76, log 7). -/
  err : ErrCode
  /-- `XSUM` (R31). -/
  xsum : Byte
  /-- `TIMESTAMP` (R32). -/
  timestamp : BitVec 32
  /-- `STATUS` (R32, R75). -/
  status : BitVec 2
  /-- `TEMPERATURE_C` (R32). -/
  temperatureC : BitVec 16
  /-- `BATTERY_MV` (R32). -/
  batteryMv : BitVec 16
  /-- `WHEEL_X` (R32). -/
  wheelX : BitVec 16
  /-- `WHEEL_Y` (R32). -/
  wheelY : BitVec 16
  /-- `WHEEL_Z` (R32). -/
  wheelZ : BitVec 16
  /-- The model's own: what the most recent Layer F operation returned to its caller (R21, log 3). -/
  ret : Option Ret
  /-- The model's own: what the environment presents, oldest first (R20, R23, log 1). -/
  inputs : List Presented
deriving DecidableEq, Repr

/-- The reset values of R38; nothing returned and nothing presented (logs 1 and 3). -/
def State.reset : State where
  fb := []
  cnt := 0
  acc := 0x00
  done := false
  ok := false
  err := .errNone
  xsum := 0x00
  timestamp := 0x00000000
  status := 3
  temperatureC := 0x0000
  batteryMv := 0x0000
  wheelX := 0x0000
  wheelY := 0x0000
  wheelZ := 0x0000
  ret := none
  inputs := []

/-- The faults: what the spec treats as a faulty machine. -/
inductive Fault where
  /-- Raised by a step that is presented an `ERR` code 5 to 7, "a consumer that sees one is looking at a faulty block"
  (R77, 93 U11). Safe: the machine stops. -/
  | unusedErrCode
deriving DecidableEq, Repr

/-- The refusals: what the model gives no meaning. -/
inductive Refusal where
  /-- Raised by an arm of `exec` whose operation has no meaning yet. Safe: the machine stops. -/
  | notModelled (mnemonic : String)
  /-- Raised by DECODE of a frame that VALIDATE does not accept: "its value on such a frame is not defined by the source"
  (R128; 93 U7: refuse). Safe: the machine stops. -/
  | frameNotValidated
  /-- Raised by a step that is presented a call whose operand bytes are not as many as its operation takes (R102 to R104:
  "Requires `n = 20`"). Safe: the machine stops. -/
  | operandLength
deriving DecidableEq, Repr

/-- What an operation or a step answers. -/
abbrev Answer := Host.Outcome State Fault Refusal

end Sys2Proof.Machine
end

