-- ==== Sys2Proof/Machine/Ops.lean ====
section
/-! DEFINITION. The named operations over the frame buffer and the registers, and the entry of a rejection
(spec/20_memory.md R52, R63; spec/42_parse_and_port.md R144, R145; spec/60_exceptions.md R168). -/

namespace Sys2Proof.Machine

/-- The byte at an address of the frame buffer. -/
def Memory.read : Memory → Nat → Byte
  | [], _ => Memory.unlisted
  | (k, v) :: m, a => if k = a then v else Memory.read m a

/-- A new cell at its place in the rising order. -/
def Memory.insert : Memory → Nat → Byte → Memory
  | [], a, v => [(a, v)]
  | (k, x) :: m, a, v => if a < k then (a, v) :: (k, x) :: m else (k, x) :: Memory.insert m a v

/-- `MemWrite(a, 1, v)`, keeping the canonical form: writing what an unlisted address reads as removes the cell. -/
def Memory.write (m : Memory) (a : Nat) (v : Byte) : Memory :=
  let rest := m.filter (fun c => c.1 != a)
  if v = Memory.unlisted then rest else Memory.insert rest a v

/-- The twenty bytes of the frame buffer, in address order (R50). -/
def frameOf (m : Memory) : RawFrame :=
  ⟨(List.range 20).map (Memory.read m), by simp⟩

/-- `min(CNT + 1, 21)`: the saturating increment (R24, R107). -/
def bump (c : Fin 22) : Fin 22 := ⟨min (c.val + 1) Config.cntSat, by simp only [Config.cntSat]; omega⟩

/-- The frame buffer with the byte accepted: `FB[CNT] <- in_data` if `CNT < 20` (R63). -/
def storedByte (s : State) (d : Byte) : Memory :=
  if s.cnt.val < Config.frameLen then Memory.write s.fb s.cnt.val d else s.fb

/-- The checksum with the byte accepted: `ACC ^ in_data` if `CNT < 19` (R27). -/
def foldedByte (s : State) (d : Byte) : Byte :=
  if s.cnt.val < Config.csumSpan then s.acc ^^^ d else s.acc

/-- The record registers, read as a record (R32). -/
def State.record (s : State) : HealthRecord :=
  { timestamp := s.timestamp
    status := statusOfCode s.status
    temperatureC := s.temperatureC
    batteryMv := s.batteryMv
    wheelX := s.wheelX
    wheelY := s.wheelY
    wheelZ := s.wheelZ }

/-- The output registers but `DONE`: `(OK, ERR, XSUM, record registers)` (R148). -/
def State.out (s : State) : ParseOut :=
  { ok := s.ok, err := s.err, xsum := s.xsum, record := s.record }

/-- The status triple `SR = DONE ∥ OK ∥ ERR[2:0]` (R35). -/
def State.sr (s : State) : BitVec 5 := (BitVec.ofBool s.done ++ BitVec.ofBool s.ok ++ s.err.code : BitVec (1 + 1 + 3))

/-- A Layer F operation's effect: its result goes to the caller, no register is touched (R21, R39, log 4). -/
def State.returns (s : State) (r : Ret) : State := { s with ret := some r }

/-- The input at hand is used up (log 1). -/
def State.consume (s : State) : State := { s with inputs := s.inputs.tail }

/-- A byte accepted into the frame buffer (R63). -/
def State.store (s : State) (d : Byte) : State := { s with fb := storedByte s d }

/-- The end of a frame: the output registers take a result, `DONE` rises, and the in-frame registers are ready for byte 0 of
the next frame (R145). -/
def State.present (s : State) (o : ParseOut) : State :=
  { s with
    cnt := 0
    acc := 0x00
    done := true
    ok := o.ok
    err := o.err
    xsum := o.xsum
    timestamp := o.record.timestamp
    status := o.record.status.code
    temperatureC := o.record.temperatureC
    batteryMv := o.record.batteryMv
    wheelX := o.record.wheelX
    wheelY := o.record.wheelY
    wheelZ := o.record.wheelZ }

/-- The entry of a rejection, the block's one kind of exception: `OK <- 0`, `ERR <-` the code, `XSUM <-` the generated checksum,
`DONE <- 1`, the null record, `CNT <- 0`, `ACC <- 0`; nothing is saved and control goes nowhere (R168). There is no return
operation, because nothing was entered (R170): the state is already ready for the next frame. -/
def State.reject (s : State) (e : ParseError) (xs : Byte) : State :=
  s.present { ok := false, err := e.errCode, xsum := xs, record := nullRecord }

/-- The end of an accepted frame (R145). -/
def State.accept (s : State) (r : HealthRecord) (xs : Byte) : State :=
  s.present { ok := true, err := .errNone, xsum := xs, record := r }

/-- Every register at its reset value; what the environment presents and what a caller holds are not the block's (R38, R142). -/
def State.resetBlock (s : State) : State := { State.reset with ret := s.ret, inputs := s.inputs }

end Sys2Proof.Machine
end

