-- ==== Sys2Proof/Machine/Checks.lean ====
section
/-! DEFINITION. The CHECK operations (spec/40_validator.md R100 to R105): each returns its flag and what it raises, and touches
no register (spec/10_state.md R39). -/

namespace Sys2Proof.Machine

/-- LENCHK (R100). -/
def execLenchk (cand : Candidate) (s : State) : Answer :=
  .next (s.returns (.check .len (lenOk cand) (raisedBy .inputTypeOrLength (lenOk cand))))

/-- XORSUM (R101). -/
def execXorsum (cand : Candidate) (s : State) : Answer :=
  .next (s.returns (.xsum (xorsum cand)))

/-- CSCMP (R102). -/
def execCscmp (xs : Byte) (f : RawFrame) (s : State) : Answer :=
  .next (s.returns (.check .csum (csumOk xs f) (raisedBy .checksum (csumOk xs f))))

/-- SYNCMATCH (R103). -/
def execSyncmatch (f : RawFrame) (s : State) : Answer :=
  .next (s.returns (.check .sync (syncOk f) (raisedBy .syncWord (syncOk f))))

/-- TYPEMATCH (R104). -/
def execTypematch (f : RawFrame) (s : State) : Answer :=
  .next (s.returns (.check .type (typeOk f) (raisedBy .frameType (typeOk f))))

/-- VALIDATE (R105). -/
def execValidate (cand : Candidate) (s : State) : Answer :=
  .next (s.returns (.validated (checkFlags cand) (validate cand)))

end Sys2Proof.Machine
end

