-- ==== Sys2Proof/Machine/CodeRows.lean ====
section
/-! DEFINITION. The rows of the small codes. A status code byte is translated (spec/41_decoder.md R127). A code of the output
ports is read: a `STATUS` code tells its variant, an `ERR` code its cause (spec/30_encoding.md R75, R76; log 5). -/

namespace Sys2Proof.Machine

/-- SCODE_SAFE: code 0 (R74, R127). -/
def execScodeSafe (s : State) : Answer := .next (s.returns (.variant (sxlate 0)))

/-- SCODE_NOMINAL: code 1 (R74, R127). -/
def execScodeNominal (s : State) : Answer := .next (s.returns (.variant (sxlate 1)))

/-- SCODE_SCIENCE: code 2 (R74, R127). -/
def execScodeScience (s : State) : Answer := .next (s.returns (.variant (sxlate 2)))

/-- SCODE_UNKNOWN: any other code (R74, R127). -/
def execScodeUnknown (scode : Byte) (s : State) : Answer := .next (s.returns (.variant (sxlate scode)))

/-- What an `ERR` code tells its reader (R76). -/
def readErr (c : ErrCode) (s : State) : Answer := .next (s.returns (.cause c.cause))

/-- ERR_NONE (R76). -/
def execErrNone (s : State) : Answer := readErr .errNone s

/-- ERR_LEN (R76, R161). -/
def execErrLen (s : State) : Answer := readErr .errLen s

/-- ERR_CSUM (R76, R162). -/
def execErrCsum (s : State) : Answer := readErr .errCsum s

/-- ERR_SYNC (R76, R163). -/
def execErrSync (s : State) : Answer := readErr .errSync s

/-- ERR_FTYPE (R76, R164). -/
def execErrFtype (s : State) : Answer := readErr .errFtype s

/-- What a `STATUS` code tells its reader (R75). -/
def readStatus (c : BitVec 2) (s : State) : Answer := .next (s.returns (.variant (statusOfCode c)))

/-- STATUS_SAFE (R75). -/
def execStatusSafe (s : State) : Answer := readStatus 0b00 s

/-- STATUS_NOMINAL (R75). -/
def execStatusNominal (s : State) : Answer := readStatus 0b01 s

/-- STATUS_SCIENCE (R75). -/
def execStatusScience (s : State) : Answer := readStatus 0b10 s

/-- STATUS_UNKNOWN (R75). -/
def execStatusUnknown (s : State) : Answer := readStatus 0b11 s

end Sys2Proof.Machine
end

