-- ==== Sys2Proof/Machine/Fields.lean ====
section
/-! DEFINITION. The FIELD operations (spec/41_decoder.md R120 to R126, R129): each returns its field and touches no register
(spec/10_state.md R39). They run on any 20-byte frame (log 10). -/

namespace Sys2Proof.Machine

/-- EXT_TS: offsets 4 to 7, unsigned (R120). -/
def execExtTs (f : RawFrame) (s : State) : Answer := .next (s.returns (.field (extract f (fieldRow .ts))))

/-- EXT_ST: offset 8, unsigned (R121). -/
def execExtSt (f : RawFrame) (s : State) : Answer := .next (s.returns (.field (extract f (fieldRow .st))))

/-- EXT_TEMP: offsets 9 and 10, signed (R122). -/
def execExtTemp (f : RawFrame) (s : State) : Answer := .next (s.returns (.field (extract f (fieldRow .temp))))

/-- EXT_BATT: offsets 11 and 12, unsigned (R123). -/
def execExtBatt (f : RawFrame) (s : State) : Answer := .next (s.returns (.field (extract f (fieldRow .batt))))

/-- EXT_WX: offsets 13 and 14, signed (R124). -/
def execExtWx (f : RawFrame) (s : State) : Answer := .next (s.returns (.field (extract f (fieldRow .wx))))

/-- EXT_WY: offsets 15 and 16, signed (R125). -/
def execExtWy (f : RawFrame) (s : State) : Answer := .next (s.returns (.field (extract f (fieldRow .wy))))

/-- EXT_WZ: offsets 17 and 18, signed (R126). -/
def execExtWz (f : RawFrame) (s : State) : Answer := .next (s.returns (.field (extract f (fieldRow .wz))))

end Sys2Proof.Machine
end

