-- ==== Sys2Proof/Machine/Frames.lean ====
section
/-! DEFINITION. The FRAME operation and the TOP operations (spec/30_encoding.md R71, R72; spec/41_decoder.md R127, R128;
spec/42_parse_and_port.md R140): Layer F, so no register is touched (spec/10_state.md R39). -/

namespace Sys2Proof.Machine

/-- PARSE: the result, and the same as the outputs the hardware presents (R140). -/
def execParse (cand : Candidate) (s : State) : Answer :=
  .next (s.returns (.parsed (parse cand) (parseOut cand)))

/-- AE1_HEALTH: a frame in the FRAME format is parsed (R72, R73, R140). -/
def execAe1Health (timestamp : BitVec 32) (scode : Byte) (temp batt wx wy wz : BitVec 16) (csum : Byte) (s : State) : Answer :=
  execParse (healthBytes timestamp scode temp batt wx wy wz csum) s

/-- SXLATE (R127). -/
def execSxlate (scode : Byte) (s : State) : Answer := .next (s.returns (.variant (sxlate scode)))

/-- DECODE: the record of a validated frame; any other frame is refused, as 93 U7 says (R128, log 11). -/
def execDecode (f : RawFrame) (s : State) : Answer :=
  match validate f.bytes with
  | .ok g => .next (s.returns (.record (recordOf g)))
  | .err _ => .refused .frameNotValidated

end Sys2Proof.Machine
end

