-- ==== Sys2Proof/Machine/PortSteps.lean ====
section
/-! DEFINITION. The four steps of Layer P (spec/42_parse_and_port.md R142 to R145). Every read of a step sees the state before
it; all writes of a step happen together (spec/00_scope.md R12). -/

namespace Sys2Proof.Machine

/-- RESET (R142). -/
def execReset (s : State) : Answer := .next s.resetBlock

/-- IDLE (R143). -/
def execIdle (s : State) : Answer := .next { s with done := false }

/-- BYTE (R144). -/
def execByte (d : Byte) (s : State) : Answer :=
  .next { s with fb := storedByte s d, acc := foldedByte s d, cnt := bump s.cnt, done := false }

/-- LAST: the last byte is forwarded into the checks, the first failing check decides, and all four are evaluated in this one
step (R145). -/
def execLast (d : Byte) (s : State) : Answer :=
  let n := bump s.cnt
  let xs := foldedByte s d
  let f := frameOf (storedByte s d)
  match firstFailing (n.val == Config.frameLen) (csumOk xs f) (syncOk f) (typeOk f) with
  | some e => .next ((s.store d).reject e xs)
  | none => .next ((s.store d).accept (recordOf f) xs)

end Sys2Proof.Machine
end

