-- ==== Sys2Proof/Machine/Dispatch.lean ====
section
/-! DEFINITION. One arm per operation of the block (spec/30_encoding.md R81). -/

namespace Sys2Proof.Machine

def exec (i : Instr) (s : State) : Host.Outcome State Fault Refusal :=
  match i with
  | .ae1Health t c temp batt wx wy wz k => Sys2Proof.Machine.execAe1Health t c temp batt wx wy wz k s
  | .scodeSafe => Sys2Proof.Machine.execScodeSafe s
  | .scodeNominal => Sys2Proof.Machine.execScodeNominal s
  | .scodeScience => Sys2Proof.Machine.execScodeScience s
  | .scodeUnknown c => Sys2Proof.Machine.execScodeUnknown c s
  | .lenchk cand => Sys2Proof.Machine.execLenchk cand s
  | .xorsum cand => Sys2Proof.Machine.execXorsum cand s
  | .cscmp xs f => Sys2Proof.Machine.execCscmp xs f s
  | .syncmatch f => Sys2Proof.Machine.execSyncmatch f s
  | .typematch f => Sys2Proof.Machine.execTypematch f s
  | .validate cand => Sys2Proof.Machine.execValidate cand s
  | .extTs f => Sys2Proof.Machine.execExtTs f s
  | .extSt f => Sys2Proof.Machine.execExtSt f s
  | .extTemp f => Sys2Proof.Machine.execExtTemp f s
  | .extBatt f => Sys2Proof.Machine.execExtBatt f s
  | .extWx f => Sys2Proof.Machine.execExtWx f s
  | .extWy f => Sys2Proof.Machine.execExtWy f s
  | .extWz f => Sys2Proof.Machine.execExtWz f s
  | .sxlate c => Sys2Proof.Machine.execSxlate c s
  | .decode f => Sys2Proof.Machine.execDecode f s
  | .parse cand => Sys2Proof.Machine.execParse cand s
  | .reset => Sys2Proof.Machine.execReset s
  | .idle => Sys2Proof.Machine.execIdle s
  | .byte d => Sys2Proof.Machine.execByte d s
  | .last d => Sys2Proof.Machine.execLast d s
  | .errNone => Sys2Proof.Machine.execErrNone s
  | .errLen => Sys2Proof.Machine.execErrLen s
  | .errCsum => Sys2Proof.Machine.execErrCsum s
  | .errSync => Sys2Proof.Machine.execErrSync s
  | .errFtype => Sys2Proof.Machine.execErrFtype s
  | .statusSafe => Sys2Proof.Machine.execStatusSafe s
  | .statusNominal => Sys2Proof.Machine.execStatusNominal s
  | .statusScience => Sys2Proof.Machine.execStatusScience s
  | .statusUnknown => Sys2Proof.Machine.execStatusUnknown s

end Sys2Proof.Machine
end

