-- ==== Sys2Proof/WellFormed.lean ====
section
/-! DEFINITION. Which operations are well formed: the dependent checksum operand of AE1_HEALTH (spec/30_encoding.md R71),
the range of SCODE_UNKNOWN's code (R74), and DECODE's validated operand (spec/41_decoder.md R128). -/

namespace Sys2Proof

/-- The checks on an operation's operands. Every other operand is right by its type. -/
def wellFormed : Instr → Bool
  | .ae1Health t s c b x y z k => k == xorsum (healthPrefix t s c b x y z)
  | .scodeUnknown code => decide (3 ≤ code.toNat)
  | .decode f => validate f.bytes == .ok f
  | .scodeSafe | .scodeNominal | .scodeScience => true
  | .lenchk _ | .xorsum _ | .cscmp .. | .syncmatch _ | .typematch _ | .validate _ => true
  | .extTs _ | .extSt _ | .extTemp _ | .extBatt _ | .extWx _ | .extWy _ | .extWz _ => true
  | .sxlate _ | .parse _ => true
  | .reset | .idle | .byte _ | .last _ => true
  | .errNone | .errLen | .errCsum | .errSync | .errFtype => true
  | .statusSafe | .statusNominal | .statusScience | .statusUnknown => true

/-- An operation is well formed. -/
abbrev WellFormed (i : Instr) : Prop := wellFormed i = true

end Sys2Proof
end

