-- ==== Sys2Proof/Decode.lean ====
section
/-! DEFINITION. From what is presented to the operation it stands for, total, rejecting by name, and the encoder back
(spec/30_encoding.md R70 to R78, spec/42_parse_and_port.md R141). -/

namespace Sys2Proof

/-- Why something presented stands for no operation. -/
inductive DecodeError where
  /-- A candidate that is no AE-1 health packet, with the check that says so (R72, R77). -/
  | notHealthPacket (cand : Candidate) (cause : ParseError)
  /-- An `ERR` code 5 to 7: never produced (R76, R77). -/
  | unusedErrCode (code : BitVec 3)
  /-- A call whose operand bytes are not as many as its operation takes. -/
  | operandLength (op : OpName) (n : Nat)
  /-- A call of DECODE on a frame that VALIDATE does not accept (R128, 93 U7). -/
  | frameNotValidated (cause : ParseError)
deriving DecidableEq, Repr

/-- What a decoder answers. -/
abbrev Decoded := Except DecodeError Instr

/-- Step selection from the port sample: `1--` RESET, `00-` IDLE, `010` BYTE, `011` LAST (R141). -/
def decodePort (p : PortIn) : Instr :=
  if p.rst then .reset
  else if !p.inValid then .idle
  else if !p.inLast then .byte p.inData
  else .last p.inData

/-- The `FRAME` format: recognised iff 20 bytes long, the checksum right and the header bytes right (R72). -/
def decodeFrame (cand : Candidate) : Decoded :=
  match validate cand with
  | .ok f => .ok (.ae1Health (extTs f) (extSt f) (extTemp f) (extBatt f) (extWx f) (extWy f) (extWz f) (f.byte 19))
  | .err e => .error (.notHealthPacket cand e)

/-- The `SCODE` format: three explicit rows and the default (R74). -/
def decodeScode (code : Byte) : Instr :=
  if code = 0b00000000 then .scodeSafe
  else if code = 0b00000001 then .scodeNominal
  else if code = 0b00000010 then .scodeScience
  else .scodeUnknown code

/-- The `STATUS` format: all four patterns are used (R75). -/
def decodeStatus (code : BitVec 2) : Instr :=
  if code = 0b00 then .statusSafe
  else if code = 0b01 then .statusNominal
  else if code = 0b10 then .statusScience
  else .statusUnknown

/-- The `ERR` format: 5 to 7 are unused (R76). -/
def decodeErr (code : BitVec 3) : Decoded :=
  if code = 0b000 then .ok .errNone
  else if code = 0b001 then .ok .errLen
  else if code = 0b010 then .ok .errCsum
  else if code = 0b011 then .ok .errSync
  else if code = 0b100 then .ok .errFtype
  else .error (.unusedErrCode code)

/-- An operation on exactly 20 bytes, from its operand bytes. -/
def onRawFrame (op : OpName) (bytes : List Byte) (mk : RawFrame → Decoded) : Decoded :=
  if h : bytes.length = Config.frameLen then mk ⟨bytes, h⟩ else .error (.operandLength op bytes.length)

/-- CSCMP's operands: `xsum`, then the frame (R102). -/
def decodeCscmp (operand : List Byte) : Decoded :=
  match operand with
  | xs :: bytes => onRawFrame .cscmp bytes (fun f => .ok (.cscmp xs f))
  | [] => .error (.operandLength .cscmp 0)

/-- DECODE's operand is a validated frame (R128). -/
def decodeDecode (f : RawFrame) : Decoded :=
  match validate f.bytes with
  | .ok _ => .ok (.decode f)
  | .err e => .error (.frameNotValidated e)

/-- SXLATE's operand is one byte (R127). -/
def decodeSxlate (operand : List Byte) : Decoded :=
  match operand with
  | [code] => .ok (.sxlate code)
  | _ => .error (.operandLength .sxlate operand.length)

/-- A call of an operation without an encoding (log 12). -/
def decodeCall (op : OpName) (operand : List Byte) : Decoded :=
  match op with
  | .lenchk => .ok (.lenchk operand)
  | .xorsum => .ok (.xorsum operand)
  | .cscmp => decodeCscmp operand
  | .syncmatch => onRawFrame .syncmatch operand (fun f => .ok (.syncmatch f))
  | .typematch => onRawFrame .typematch operand (fun f => .ok (.typematch f))
  | .validate => .ok (.validate operand)
  | .extTs => onRawFrame .extTs operand (fun f => .ok (.extTs f))
  | .extSt => onRawFrame .extSt operand (fun f => .ok (.extSt f))
  | .extTemp => onRawFrame .extTemp operand (fun f => .ok (.extTemp f))
  | .extBatt => onRawFrame .extBatt operand (fun f => .ok (.extBatt f))
  | .extWx => onRawFrame .extWx operand (fun f => .ok (.extWx f))
  | .extWy => onRawFrame .extWy operand (fun f => .ok (.extWy f))
  | .extWz => onRawFrame .extWz operand (fun f => .ok (.extWz f))
  | .sxlate => decodeSxlate operand
  | .decode => onRawFrame .decode operand decodeDecode
  | .parse => .ok (.parse operand)

/-- The decoder, total on everything that can be presented. -/
def decode : Presented → Decoded
  | .port p => .ok (decodePort p)
  | .frame cand => decodeFrame cand
  | .scode code => .ok (decodeScode code)
  | .status code => .ok (decodeStatus code)
  | .err code => decodeErr code
  | .call op operand => decodeCall op operand

/-- The encoder. A don't-care bit of the port pattern is written 0 (R141). -/
def encode : Instr → Presented
  | .ae1Health t s c b x y z k => .frame (healthBytes t s c b x y z k)
  | .scodeSafe => .scode 0b00000000
  | .scodeNominal => .scode 0b00000001
  | .scodeScience => .scode 0b00000010
  | .scodeUnknown code => .scode code
  | .lenchk cand => .call .lenchk cand
  | .xorsum cand => .call .xorsum cand
  | .cscmp xs f => .call .cscmp (xs :: f.bytes)
  | .syncmatch f => .call .syncmatch f.bytes
  | .typematch f => .call .typematch f.bytes
  | .validate cand => .call .validate cand
  | .extTs f => .call .extTs f.bytes
  | .extSt f => .call .extSt f.bytes
  | .extTemp f => .call .extTemp f.bytes
  | .extBatt f => .call .extBatt f.bytes
  | .extWx f => .call .extWx f.bytes
  | .extWy f => .call .extWy f.bytes
  | .extWz f => .call .extWz f.bytes
  | .sxlate code => .call .sxlate [code]
  | .decode f => .call .decode f.bytes
  | .parse cand => .call .parse cand
  | .reset => .port { rst := true, inValid := false, inLast := false, inData := 0 }
  | .idle => .port { rst := false, inValid := false, inLast := false, inData := 0 }
  | .byte d => .port { rst := false, inValid := true, inLast := false, inData := d }
  | .last d => .port { rst := false, inValid := true, inLast := true, inData := d }
  | .errNone => .err 0b000
  | .errLen => .err 0b001
  | .errCsum => .err 0b010
  | .errSync => .err 0b011
  | .errFtype => .err 0b100
  | .statusSafe => .status 0b00
  | .statusNominal => .status 0b01
  | .statusScience => .status 0b10
  | .statusUnknown => .status 0b11

/-- `n` bytes of a numbered word, most significant byte first: `F[0]` is the top byte of the frame word (R10). -/
def wordBytes : Nat → Nat → List Byte
  | 0, _ => []
  | n + 1, w => BitVec.ofNat 8 (w / 256 ^ n) :: wordBytes n w

/-- What a word of the opcode table stands for, by its width (log 6): 2 bits `STATUS`, 3 bits `ERR`, one byte (or a byte the
table pads to two) `SCODE`, anything longer a candidate in the `FRAME` format. -/
def presentedOfTableWord (nbits w : Nat) : Presented :=
  if nbits ≤ 2 then .status (BitVec.ofNat 2 w)
  else if nbits = 3 then .err (BitVec.ofNat 3 w)
  else if nbits ≤ 16 then .scode (BitVec.ofNat 8 w)
  else .frame (wordBytes (nbits / 8) w)

/-- The operation the decoder reads from a word of the opcode table. -/
def decodeTableWord (nbits w : Nat) : Option Instr :=
  match decode (presentedOfTableWord nbits w) with
  | .ok i => some i
  | .error _ => none

end Sys2Proof
end

