-- ==== Sys2Proof/Machine/Fetch.lean ====
section
/-! DEFINITION. What a step is presented, and what a step does when that stands for no operation (logs 2 and 13). -/

namespace Sys2Proof.Machine

/-- The port sample of an environment that presents nothing: `rst = 0`, `in_valid = 0`, an IDLE step (log 2). -/
def quietPort : Presented := .port { rst := false, inValid := false, inLast := false, inData := 0 }

/-- What this step is presented: the oldest input, or a quiet port. -/
def fetched (s : State) : Presented := s.inputs.headD quietPort

/-- A candidate that is no health packet is rejected as PARSE rejects it, an ordinary outcome (R77, R160); an unused `ERR` code
is a faulty block's (R77, 93 U11); a call without its operand, or of DECODE on a frame that is not validated, is refused. -/
def undecoded (e : DecodeError) (s : State) : Answer :=
  match e with
  | .notHealthPacket cand _ => execParse cand s
  | .unusedErrCode _ => .fault .unusedErrCode
  | .operandLength _ _ => .refused .operandLength
  | .frameNotValidated _ => .refused .frameNotValidated

end Sys2Proof.Machine
end

