-- ==== Sys2Proof/Machine/Step.lean ====
section
/-! DEFINITION. One step: take what the environment presents, decode it, run the operation (spec/42_parse_and_port.md R141). -/

namespace Sys2Proof.Machine

/-- One step of the machine. -/
def step (s : State) : Host.Outcome State Fault Refusal :=
  match decode (fetched s) with
  | .ok i => exec i s.consume
  | .error e => undecoded e s.consume

/-- A word of the opcode table presented as the next input (logs 6 and 16). -/
def State.withFetchWord (s : State) (nbits w : Nat) : State :=
  { s with inputs := presentedOfTableWord nbits w :: s.inputs }

end Sys2Proof.Machine
end

