-- ==== Sys2Proof/Safety.lean ====
section
/-! DEFINITION. The terms claims use: the invariants of every state reachable from reset (spec/10_state.md R37), candidate frames
at the port (spec/42_parse_and_port.md R147), runs and their observation (spec/70_reset_and_hazards.md R204). -/

namespace Sys2Proof.Machine

/-- The invariants of R37, as far as one state can show them: 2 and 3 speak of the bytes of the partial frame, which the frame
buffer holds; 1 and 5 are the types of `cnt` and `err`. -/
structure State.Inv (s : State) : Prop where
  /-- The frame buffer is canonical (log 9). -/
  fbCanonical : Memory.wf s.fb
  /-- R37.2, with R37.3: `ACC` is the XOR of the bytes of the partial frame at offsets `0 .. min(CNT,19)-1`. -/
  accFolds : s.acc = xorsum ((frameOf s.fb).bytes.take s.cnt.val)
  /-- R37.4. -/
  okMeansNoError : s.ok = true → s.err = .errNone
  /-- R37.6 (and, with the line above, the second half of R37.4). -/
  notOkMeansNull : s.ok = false → s.record = nullRecord
  /-- R37.7, first sentence. -/
  doneMeansOneOutcome : s.done = true → (s.ok = true ↔ s.err = .errNone)
  /-- R37.7, second sentence: with no frame completed since reset, the other outputs are at their reset values. -/
  noFrameYet : s.ok = false → s.err = .errNone → s.done = false ∧ s.xsum = 0x00

/-- The registers of the block, the spec's 300 bits, agree (the model's own two fields apart). -/
abbrev State.sameBlock (s t : State) : Prop :=
  { t with ret := s.ret, inputs := s.inputs } = s

/-- The legal values of the status triple `SR` (R35): after reset, after a LAST step, and after the following other step. -/
abbrev legalSr (sr : BitVec 5) : Prop :=
  sr = 0b00000 ∨ sr = 0b11000 ∨ sr = 0b10001 ∨ sr = 0b10010 ∨ sr = 0b10011 ∨ sr = 0b10100 ∨
    sr = 0b01000 ∨ sr = 0b00001 ∨ sr = 0b00010 ∨ sr = 0b00011 ∨ sr = 0b00100

/-- What a port sample does to the candidate being received (R147): its bytes so far, oldest first. -/
def receive (c : Candidate) (p : PortIn) : Candidate :=
  match p.rst, p.inValid, p.inLast with
  | true, _, _ => []
  | false, false, _ => c
  | false, true, false => c ++ [p.inData]
  | false, true, true => []

/-- The incomplete candidate after a sequence of port samples, from one that was being received (R147). -/
def openCandidate (c : Candidate) (ps : List PortIn) : Candidate := ps.foldl receive c

/-- The candidates a sequence of port samples completes, in order (R147): one at every LAST byte. -/
def completed : Candidate → List PortIn → List Candidate
  | _, [] => []
  | c, p :: ps =>
    if !p.rst && p.inValid && p.inLast then (c ++ [p.inData]) :: completed (receive c p) ps
    else completed (receive c p) ps

/-- The states a machine goes through in `n` steps, the state before the first step left out. -/
def statesAfter : Nat → State → List State
  | 0, _ => []
  | n + 1, s =>
    match step s with
    | .next t => t :: statesAfter n t
    | .fault _ => []
    | .refused _ => []

/-- What a consumer reads in a state with `DONE = 1` (R204). -/
def observed (s : State) : Option ParseOut := if s.done then some s.out else none

/-- The observation of `n` steps: the result tuples in the states with `DONE = 1`, in order (R204). -/
def observation (n : Nat) (s : State) : List ParseOut := (statesAfter n s).filterMap observed

/-- A state whose environment presents these port samples next. -/
def State.withPorts (s : State) (ps : List PortIn) : State := { s with inputs := ps.map Presented.port }

/-- The port samples that present a candidate: one byte a step, `in_last` on the final byte (R203). -/
def presenting : Candidate → List PortIn
  | [] => []
  | [d] => [{ rst := false, inValid := true, inLast := true, inData := d }]
  | d :: ds => { rst := false, inValid := true, inLast := false, inData := d } :: presenting ds

/-- A call carries the operand bytes its operation takes (R100 to R105, R120 to R128, R140; log 12): a candidate of any length,
20 bytes, `xsum` and 20 bytes, one byte, or a frame that VALIDATE accepts. -/
def callFits (op : OpName) (bytes : List Byte) : Prop :=
  match op with
  | .lenchk | .xorsum | .validate | .parse => True
  | .cscmp => bytes.length = 21
  | .syncmatch | .typematch => bytes.length = 20
  | .extTs | .extSt | .extTemp | .extBatt | .extWx | .extWy | .extWz => bytes.length = 20
  | .sxlate => bytes.length = 1
  | .decode => ∃ f, validate bytes = .ok f

/-- A frame with bit `j` of byte `i` flipped (R106 b). -/
def flipBit (f : RawFrame) (i : Fin 20) (j : Fin 8) : Candidate :=
  f.bytes.set i.val (f.byte i ^^^ BitVec.twoPow 8 j.val)

end Sys2Proof.Machine
end

