-- ==== Sys2Proof/Certificates/Slice0/Obligations.lean ====
section
/-! DEFINITION. The statements for the provers. A docstring names the rule of spec/ a statement formalises. Where a statement
says that `ret` or `inputs` (the model's own fields) is kept or set, that clause is the model's choice (logs 1 and 3). -/

open Sys2Proof Sys2Proof.Machine

/-! Encodings, decoding and the step. -/

/-- Decode and encode agree on every well-formed operation (R71, R74 to R76, R141; the call form is the model's, log 12). -/
def Obligations.DecodeOfEncodeIsTheOperation : Prop :=
  ∀ i : Instr, WellFormed i → decode (encode i) = .ok i

/-- What the decoder answers is well formed. -/
def Obligations.DecodedOperationIsWellFormed : Prop :=
  ∀ (w : Presented) (i : Instr), decode w = .ok i → WellFormed i

/-- Away from the port (whose pattern has don't-care bits), each word has one meaning: no bit of it is dropped. -/
def Obligations.EncodeOfDecodeIsTheWord : Prop :=
  ∀ (w : Presented) (i : Instr), w.format ≠ .step → decode w = .ok i → encode i = w

/-- `F[i] = W[159-8i : 152-8i]` (R10). -/
def Obligations.FrameWordSliceIsTheByte : Prop :=
  ∀ (f : RawFrame) (i : Fin 20), (frameWord f).extractLsb' (152 - 8 * i.val) 8 = f.byte i

/-- R72: a 20-byte word is a health packet iff its masked bits match and its low byte is the XOR of the nineteen higher bytes. -/
def Obligations.HealthPacketIffMaskAndChecksum : Prop :=
  (∀ f : RawFrame,
    (∃ i, decode (.frame f.bytes) = .ok i) ↔
      (frameWord f &&& Config.frameMask = Config.frameMatch ∧
        (frameWord f).extractLsb' 0 8 =
          (List.range 19).foldl (fun x i => x ^^^ (frameWord f).extractLsb' (152 - 8 * i) 8) 0#8)) ∧
  ∀ cand : Candidate, cand.length ≠ 20 → decode (.frame cand) = .error (.notHealthPacket cand .inputTypeOrLength)

/-- A few words of spec/95_test_vectors.md and spec/opcode_table.json decode to what they stand for (R71, R74 to R76, R141). -/
def Obligations.SpecWordsDecode : Prop :=
  decode (.frame [0xAE, 0x5F, 0x1B, 0x0F, 0x68, 0xE5, 0x4D, 0x60, 0x01, 0x00, 0x19, 0x1D, 0x4C, 0x0B, 0xB8, 0xFC, 0x18,
    0x00, 0x00, 0x5B]) = .ok (.ae1Health 1759858016 1 25 7500 3000 0xFC18 0 0x5B) ∧
  decode (.scode 0b00000010) = .ok .scodeScience ∧ decode (.scode 0b00000100) = .ok (.scodeUnknown 4) ∧
  decode (.status 0b11) = .ok .statusUnknown ∧ decode (.err 0b100) = .ok .errFtype ∧
  decode (.port { rst := false, inValid := true, inLast := true, inData := 0x5B }) = .ok (.last 0x5B)

/-- A step runs the operation it is presented, with that input used up; with nothing presented it is IDLE (logs 1
and 2). -/
def Obligations.StepRunsThePresentedOperation : Prop :=
  ∀ s : State,
    (∀ i, decode (fetched s) = .ok i → step s = exec i s.consume) ∧
    (∀ w rest, s.inputs = w :: rest → fetched s = w ∧ s.consume = { s with inputs := rest }) ∧
    (s.inputs = [] → step s = exec .idle s)

/-- R141: the step is selected by `rst`, `in_valid` and `in_last`; only BYTE and LAST read `in_data`; every step gives a next
state, whatever the state. -/
def Obligations.PortPatternSelectsTheStep : Prop :=
  ∀ (v l : Bool) (d : Byte) (s : State),
    decode (.port { rst := true, inValid := v, inLast := l, inData := d }) = .ok .reset ∧
    decode (.port { rst := false, inValid := false, inLast := l, inData := d }) = .ok .idle ∧
    decode (.port { rst := false, inValid := true, inLast := false, inData := d }) = .ok (.byte d) ∧
    decode (.port { rst := false, inValid := true, inLast := true, inData := d }) = .ok (.last d) ∧
    (∃ t, exec .reset s = .next t) ∧ (∃ t, exec .idle s = .next t) ∧ (∃ t, exec (.byte d) s = .next t) ∧
    ∃ t, exec (.last d) s = .next t

/-- R171 and R141: no port sample stops the block; every one gives a next state. -/
def Obligations.EveryPortSampleGivesANextState : Prop :=
  ∀ (s : State) (p : PortIn) (rest : List Presented), s.inputs = .port p :: rest →
    ∃ t, step s = .next t ∧ t.inputs = rest ∧ t.ret = s.ret

/-- A candidate that is no health packet is not a stop: it is rejected, with the cause and the outputs of PARSE (R77, R160;
that a step answers so is the model's reading, log 13, DEDUCED). -/
def Obligations.UnrecognisedFrameIsRejected : Prop :=
  ∀ (s : State) (cand : Candidate) (rest : List Presented) (e : ParseError),
    s.inputs = .frame cand :: rest → validate cand = .err e →
    decode (.frame cand) = .error (.notHealthPacket cand e) ∧
    step s = .next { s with
      inputs := rest
      ret := some (.parsed (.err e) { ok := false, err := e.errCode, xsum := xorsum cand, record := nullRecord }) }

/-- Where a step stops, and that it stops nowhere else: an unused `ERR` code is a fault (R77, 93 U11), a call without its
operand (log 12) or of DECODE on a frame that is not validated (93 U7) is refused. -/
def Obligations.StepStopsOnlyWhereTheSpecGivesNothing : Prop :=
  ∀ s : State,
    (∀ c, fetched s = .err c → 5 ≤ c.toNat → step s = .fault .unusedErrCode) ∧
    (∀ op bytes, fetched s = .call op bytes → ¬ callFits op bytes →
      step s = .refused .operandLength ∨ step s = .refused .frameNotValidated) ∧
    ((∀ c, fetched s = .err c → c.toNat < 5) → (∀ op bytes, fetched s = .call op bytes → callFits op bytes) →
      ∃ t, step s = .next t)

/-- Every well-formed operation completes in every state: no operation stops on data (R140, R160, R171). That an extraction
counts as well formed on a frame that is not validated is the model's (log 10, DEDUCED), and so is that the ERR and STATUS rows
are operations (log 5). -/
def Obligations.EveryWellFormedOperationCompletes : Prop :=
  ∀ (i : Instr) (s : State), WellFormed i → ∃ t, exec i s = .next t

/-! The small codes. -/

/-- R74: the four SCODE rows, all 256 codes. -/
def Obligations.StatusCodeRowsTranslate : Prop :=
  decode (.scode 0) = .ok .scodeSafe ∧ decode (.scode 1) = .ok .scodeNominal ∧ decode (.scode 2) = .ok .scodeScience ∧
  (∀ c : Byte, 3 ≤ c.toNat → decode (.scode c) = .ok (.scodeUnknown c)) ∧
  ∀ s : State,
    exec .scodeSafe s = .next { s with ret := some (.variant .safe) } ∧
    exec .scodeNominal s = .next { s with ret := some (.variant .nominal) } ∧
    exec .scodeScience s = .next { s with ret := some (.variant .science) } ∧
    ∀ c : Byte, 3 ≤ c.toNat → exec (.scodeUnknown c) s = .next { s with ret := some (.variant .unknown) }

/-- R127: SXLATE on all 256 codes. -/
def Obligations.SxlateTranslatesEveryCode : Prop :=
  ∀ (c : Byte) (s : State), ∃ v,
    exec (.sxlate c) s = .next { s with ret := some (.variant v) } ∧
    (c.toNat = 0 → v = .safe) ∧ (c.toNat = 1 → v = .nominal) ∧ (c.toNat = 2 → v = .science) ∧
    (3 ≤ c.toNat → v = .unknown)

/-- R127's restatement in bits: `scode[1:0]` if `scode[7:2]` is 0, else `0b11` (the spec marks it derived). -/
def Obligations.StatusRegisterCodeInBits : Prop :=
  ∀ c : Byte, (sxlate c).code = if c.extractLsb' 2 6 = 0 then c.extractLsb' 0 2 else 0b11

/-- R75: the `STATUS` codes, read by a consumer (reading as an operation is the model's, log 5), and the code of a status byte. -/
def Obligations.StatusCodesTellTheirVariant : Prop :=
  (decode (.status 0b00) = .ok .statusSafe ∧ decode (.status 0b01) = .ok .statusNominal ∧
    decode (.status 0b10) = .ok .statusScience ∧ decode (.status 0b11) = .ok .statusUnknown) ∧
  (StatusVariant.safe.code = 0b00 ∧ StatusVariant.nominal.code = 0b01 ∧ StatusVariant.science.code = 0b10 ∧
    StatusVariant.unknown.code = 0b11) ∧
  ∀ s : State,
    exec .statusSafe s = .next { s with ret := some (.variant .safe) } ∧
    exec .statusNominal s = .next { s with ret := some (.variant .nominal) } ∧
    exec .statusScience s = .next { s with ret := some (.variant .science) } ∧
    exec .statusUnknown s = .next { s with ret := some (.variant .unknown) }

/-- R76: the `ERR` codes and their causes (reading as an operation is the model's, log 5); 5 to 7 stand for nothing. That the
`ERR` register never shows them in ANY state, power-up states included, is the model's choice to hold `ERR` as an enumeration
(log 7, a DESIGN CHOICE): the spec says so of the states after a RESET step alone (R30, R37). -/
def Obligations.ErrCodesTellTheirCause : Prop :=
  (decode (.err 0b000) = .ok .errNone ∧ decode (.err 0b001) = .ok .errLen ∧ decode (.err 0b010) = .ok .errCsum ∧
    decode (.err 0b011) = .ok .errSync ∧ decode (.err 0b100) = .ok .errFtype ∧
    ∀ c : BitVec 3, 5 ≤ c.toNat → decode (.err c) = .error (.unusedErrCode c)) ∧
  (ParseError.inputTypeOrLength.errCode.code = 1 ∧ ParseError.checksum.errCode.code = 2 ∧
    ParseError.syncWord.errCode.code = 3 ∧ ParseError.frameType.errCode.code = 4 ∧ ErrCode.errNone.code = 0) ∧
  ∀ s : State,
    s.err.code.toNat ≤ 4 ∧
    exec .errNone s = .next { s with ret := some (.cause none) } ∧
    exec .errLen s = .next { s with ret := some (.cause (some .inputTypeOrLength)) } ∧
    exec .errCsum s = .next { s with ret := some (.cause (some .checksum)) } ∧
    exec .errSync s = .next { s with ret := some (.cause (some .syncWord)) } ∧
    exec .errFtype s = .next { s with ret := some (.cause (some .frameType)) }

/-! The validator. -/

/-- R100: LENCHK raises iff the length is not 20. -/
def Obligations.LenchkRaisesUnlessTwentyBytes : Prop :=
  ParseError.inputTypeOrLength.errCode = .errLen ∧ ErrCode.errLen.code = 1 ∧
  ∀ (cand : Candidate) (s : State),
    (cand.length = 20 → exec (.lenchk cand) s = .next { s with ret := some (.check .len true none) }) ∧
    (cand.length ≠ 20 → exec (.lenchk cand) s =
      .next { s with ret := some (.check .len false (some .inputTypeOrLength)) })

/-- R101: bit `j` of `xsum` is the parity of bit `j` of the first `min(n, 19)` bytes, for every length `n`. -/
def Obligations.XorsumIsColumnParity : Prop :=
  ∀ (cand : Candidate) (s : State), ∃ x : Byte,
    exec (.xorsum cand) s = .next { s with ret := some (.xsum x) } ∧
    ∀ j < 8, x.getLsbD j = decide ((cand.take 19).countP (fun b => b.getLsbD j) % 2 = 1)

/-- R106 (a), marked derived by the spec: the order of bytes 0 to 18 does not matter. -/
def Obligations.XorsumIgnoresByteOrder : Prop :=
  ∀ (c d : Candidate) (s : State), (c.take 19).Perm (d.take 19) → exec (.xorsum c) s = exec (.xorsum d) s

/-- R102: CSCMP compares `xsum` with byte 19. -/
def Obligations.CscmpComparesByteNineteen : Prop :=
  ParseError.checksum.errCode = .errCsum ∧ ErrCode.errCsum.code = 2 ∧
  ∀ (xs : Byte) (f : RawFrame) (s : State),
    (xs = f.byte 19 → exec (.cscmp xs f) s = .next { s with ret := some (.check .csum true none) }) ∧
    (xs ≠ f.byte 19 → exec (.cscmp xs f) s = .next { s with ret := some (.check .csum false (some .checksum)) })

/-- R102 and R106 (d), marked derived by the spec: exactly one byte 19 passes, and passing is the XOR of all twenty being 0. -/
def Obligations.ExactlyOneChecksumByte : Prop :=
  ∀ (bytes : List Byte) (k : Byte) (f : RawFrame), f.bytes = bytes ++ [k] →
    (csumOk (xorsum f.bytes) f = true ↔ k = xorsum bytes) ∧
    (csumOk (xorsum f.bytes) f = true ↔ f.bytes.foldl (fun x b => x ^^^ b) 0 = 0)

/-- R103: SYNCMATCH matches `AE 5F` at offsets 0 and 1, in that order. -/
def Obligations.SyncmatchComparesTheFirstTwoBytes : Prop :=
  ParseError.syncWord.errCode = .errSync ∧ ErrCode.errSync.code = 3 ∧
  ∀ (f : RawFrame) (s : State),
    (f.byte 0 = 0xAE ∧ f.byte 1 = 0x5F → exec (.syncmatch f) s = .next { s with ret := some (.check .sync true none) }) ∧
    (¬ (f.byte 0 = 0xAE ∧ f.byte 1 = 0x5F) →
      exec (.syncmatch f) s = .next { s with ret := some (.check .sync false (some .syncWord)) })

/-- R104: TYPEMATCH compares bytes 2 and 3, with one error for both. -/
def Obligations.TypematchComparesTypeAndLength : Prop :=
  ParseError.frameType.errCode = .errFtype ∧ ErrCode.errFtype.code = 4 ∧
  ∀ (f : RawFrame) (s : State),
    (f.byte 2 = 0x1B ∧ f.byte 3 = 0x0F → exec (.typematch f) s = .next { s with ret := some (.check .type true none) }) ∧
    (¬ (f.byte 2 = 0x1B ∧ f.byte 3 = 0x0F) →
      exec (.typematch f) s = .next { s with ret := some (.check .type false (some .frameType)) })

/-- R105: VALIDATE answers the first failing check, or the frame unchanged; the last three flags exist only for 20 bytes. -/
def Obligations.ValidateAnswersTheFirstFailingCheck : Prop :=
  ∀ (cand : Candidate) (s : State), ∃ (flags : CheckFlags) (res : Result RawFrame),
    exec (.validate cand) s = .next { s with ret := some (.validated flags res) } ∧
    (cand.length ≠ 20 → flags = ⟨false, none, none, none⟩ ∧ res = .err .inputTypeOrLength) ∧
    ∀ f : RawFrame, f.bytes = cand →
      flags = ⟨true, some (decide (xorsum cand = f.byte 19)), some (decide (f.byte 0 = 0xAE ∧ f.byte 1 = 0x5F)),
        some (decide (f.byte 2 = 0x1B ∧ f.byte 3 = 0x0F))⟩ ∧
      (xorsum cand ≠ f.byte 19 → res = .err .checksum) ∧
      (xorsum cand = f.byte 19 → ¬ (f.byte 0 = 0xAE ∧ f.byte 1 = 0x5F) → res = .err .syncWord) ∧
      (xorsum cand = f.byte 19 → f.byte 0 = 0xAE ∧ f.byte 1 = 0x5F → ¬ (f.byte 2 = 0x1B ∧ f.byte 3 = 0x0F) →
        res = .err .frameType) ∧
      (xorsum cand = f.byte 19 → f.byte 0 = 0xAE ∧ f.byte 1 = 0x5F → f.byte 2 = 0x1B ∧ f.byte 3 = 0x0F → res = .ok f)

/-- R106 (b), marked derived by the spec, and property P2: one flipped bit anywhere in an accepted frame is a checksum error. -/
def Obligations.OneFlippedBitIsAChecksumError : Prop :=
  ∀ (f : RawFrame) (i : Fin 20) (j : Fin 8) (s : State), validate f.bytes = .ok f →
    ∃ out, exec (.parse (flipBit f i j)) s = .next { s with ret := some (.parsed (.err .checksum) out) } ∧
      out.ok = false ∧ out.err = .errCsum ∧ out.record = nullRecord

/-! The decoder and PARSE. -/

/-- R52: `uint(MemRead(off, n))` is the sum of `F[off+k] * 256^(n-1-k)`, for every width and every offset in the frame. -/
def Obligations.MemReadIsBigEndian : Prop :=
  ∀ (f : RawFrame) (w : Width) (off : Nat) (h : off + w.bytes ≤ 20),
    (memRead f w off h).toNat =
      ((List.range w.bytes).map (fun k => (f.bytes.getD (off + k) 0).toNat * 256 ^ (w.bytes - 1 - k))).sum

/-- R120, R121, R123: the unsigned fields, each at its own width, with its value. The spec gives these operations for a validated
frame; that they run, with the same reads, on a frame that is not validated is the model's (log 10, DEDUCED). -/
def Obligations.UnsignedExtractionsReadTheirBytes : Prop :=
  ∀ (f : RawFrame) (s : State),
    (∃ v : BitVec 32, exec (.extTs f) s = .next { s with ret := some (.field ⟨.four, v, false⟩) } ∧
      v.toNat = (f.byte 4).toNat * 16777216 + (f.byte 5).toNat * 65536 + (f.byte 6).toNat * 256 + (f.byte 7).toNat ∧
      (FieldValue.mk .four v false).value = v.toNat) ∧
    (∃ v : BitVec 8, exec (.extSt f) s = .next { s with ret := some (.field ⟨.one, v, false⟩) } ∧
      v = f.byte 8 ∧ (FieldValue.mk .one v false).value = v.toNat) ∧
    (∃ v : BitVec 16, exec (.extBatt f) s = .next { s with ret := some (.field ⟨.two, v, false⟩) } ∧
      v.toNat = (f.byte 11).toNat * 256 + (f.byte 12).toNat ∧ (FieldValue.mk .two v false).value = v.toNat)

/-- R122, R124 to R126: the signed fields: the sixteen bits, and their two's-complement value. The spec gives these operations for
a validated frame; that they run, with the same reads, on a frame that is not validated is the model's (log 10, DEDUCED). -/
def Obligations.SignedExtractionsReadTwosComplement : Prop :=
  ∀ (f : RawFrame) (s : State) (i : Instr) (hi lo : Fin 20),
    (i = .extTemp f ∧ hi = 9 ∧ lo = 10) ∨ (i = .extWx f ∧ hi = 13 ∧ lo = 14) ∨
      (i = .extWy f ∧ hi = 15 ∧ lo = 16) ∨ (i = .extWz f ∧ hi = 17 ∧ lo = 18) →
    ∃ v : BitVec 16, exec i s = .next { s with ret := some (.field ⟨.two, v, true⟩) } ∧
      v.toNat = (f.byte hi).toNat * 256 + (f.byte lo).toNat ∧
      (FieldValue.mk .two v true).value =
        if (f.byte hi).toNat < 128 then ((f.byte hi).toNat * 256 + (f.byte lo).toNat : Int)
        else (f.byte hi).toNat * 256 + (f.byte lo).toNat - 65536

/-- R128: DECODE of a validated frame returns its record, and reads only offsets 4 to 18. -/
def Obligations.DecodeReturnsTheRecord : Prop :=
  ∀ (f : RawFrame) (s : State), validate f.bytes = .ok f →
    exec (.decode f) s = .next { s with ret := some (.record
      { timestamp := (f.byte 4 ++ f.byte 5 ++ f.byte 6 ++ f.byte 7 : BitVec (8 + 8 + 8 + 8))
        status := sxlate (f.byte 8)
        temperatureC := (f.byte 9 ++ f.byte 10 : BitVec (8 + 8))
        batteryMv := (f.byte 11 ++ f.byte 12 : BitVec (8 + 8))
        wheelX := (f.byte 13 ++ f.byte 14 : BitVec (8 + 8))
        wheelY := (f.byte 15 ++ f.byte 16 : BitVec (8 + 8))
        wheelZ := (f.byte 17 ++ f.byte 18 : BitVec (8 + 8)) }) }

/-- R128 and 93 U7: a frame that VALIDATE does not accept has no DECODE, and its call does not decode. -/
def Obligations.DecodeRefusesAFrameNotValidated : Prop :=
  ∀ (f : RawFrame) (e : ParseError) (s : State), validate f.bytes = .err e →
    exec (.decode f) s = .refused .frameNotValidated ∧ ¬ WellFormed (.decode f) ∧
    decode (.call .decode f.bytes) = .error (.frameNotValidated e)

/-- R140: PARSE is total; it answers VALIDATE's error or the record of the validated frame, and PARSE_OUT says the same. -/
def Obligations.ParseIsValidateThenDecode : Prop :=
  ∀ (cand : Candidate) (s : State), ∃ (res : Result HealthRecord) (out : ParseOut),
    exec (.parse cand) s = .next { s with ret := some (.parsed res out) } ∧ out.xsum = xorsum cand ∧
    (∀ e, validate cand = .err e → res = .err e ∧ out.ok = false ∧ out.err = e.errCode ∧ out.record = nullRecord) ∧
    (∀ f, validate cand = .ok f → f.bytes = cand ∧ out.ok = true ∧ out.err = .errNone ∧ res = .ok out.record ∧
      exec (.decode f) s = .next { s with ret := some (.record out.record) })

/-- R130: every payload round-trips through a frame with the right header and checksum; the status code is recovered unless the
status is UNKNOWN. -/
def Obligations.PayloadRoundTrip : Prop :=
  ∀ (P : List Byte) (s : State), P.length = 15 →
    ∃ (r : HealthRecord) (out : ParseOut),
      exec (.parse ([0xAE, 0x5F, 0x1B, 0x0F] ++ P ++ [xorsum ([0xAE, 0x5F, 0x1B, 0x0F] ++ P)])) s =
        .next { s with ret := some (.parsed (.ok r) out) } ∧
      out = { ok := true, err := .errNone, xsum := xorsum ([0xAE, 0x5F, 0x1B, 0x0F] ++ P), record := r } ∧
      bytes32 r.timestamp = P.take 4 ∧ bytes16 r.temperatureC = (P.drop 5).take 2 ∧
      bytes16 r.batteryMv = (P.drop 7).take 2 ∧ bytes16 r.wheelX = (P.drop 9).take 2 ∧
      bytes16 r.wheelY = (P.drop 11).take 2 ∧ bytes16 r.wheelZ = (P.drop 13).take 2 ∧
      (r.status = .safe ↔ P[4]? = some 0) ∧ (r.status = .nominal ↔ P[4]? = some 1) ∧
      (r.status = .science ↔ P[4]? = some 2)

/-- R71 to R73 and R140: a well-formed AE1_HEALTH is accepted, and its record holds its operands. -/
def Obligations.HealthPacketParsesToItsOperands : Prop :=
  ∀ (t : BitVec 32) (c : Byte) (temp batt wx wy wz : BitVec 16) (k : Byte) (s : State),
    WellFormed (.ae1Health t c temp batt wx wy wz k) →
    ∃ r : HealthRecord,
      r = { timestamp := t, status := sxlate c, temperatureC := temp, batteryMv := batt, wheelX := wx, wheelY := wy,
            wheelZ := wz } ∧
      exec (.ae1Health t c temp batt wx wy wz k) s = .next { s with
        ret := some (.parsed (.ok r) { ok := true, err := .errNone, xsum := k, record := r }) }

/-- An ill-formed AE1_HEALTH, which the decoder never yields and no step runs: that `exec` answers it at all is the model's choice
(log 17, a DESIGN CHOICE). What it answers is what R77 and R102 say of the same twenty bytes: a checksum error. -/
def Obligations.HealthPacketWithAnotherChecksumIsRejected : Prop :=
  ∀ (t : BitVec 32) (c : Byte) (temp batt wx wy wz : BitVec 16) (k : Byte) (s : State),
    ¬ WellFormed (.ae1Health t c temp batt wx wy wz k) →
    exec (.ae1Health t c temp batt wx wy wz k) s = .next { s with
      ret := some (.parsed (.err .checksum)
        { ok := false, err := .errCsum, xsum := xorsum (healthPrefix t c temp batt wx wy wz), record := nullRecord }) }

/-! The four steps of Layer P. -/

/-- R38: the state a RESET step gives, which is the model's initial state. -/
def Obligations.ResetStateHoldsTheResetValues : Prop :=
  (∀ a, Memory.read State.reset.fb a = 0x00) ∧ State.reset.cnt = 0 ∧ State.reset.acc = 0 ∧ State.reset.done = false ∧
  State.reset.ok = false ∧ State.reset.err.code = 0 ∧ State.reset.xsum = 0 ∧ State.reset.timestamp = 0 ∧
  State.reset.status = 3 ∧ State.reset.temperatureC = 0 ∧ State.reset.batteryMv = 0 ∧ State.reset.wheelX = 0 ∧
  State.reset.wheelY = 0 ∧ State.reset.wheelZ = 0

/-- R142: RESET from any state gives the one reset state. -/
def Obligations.ResetFromAnyStateGivesTheResetState : Prop :=
  ∀ s : State, exec .reset s = .next
    { fb := [], cnt := 0, acc := 0x00, done := false, ok := false, err := .errNone, xsum := 0x00, timestamp := 0, status := 3,
      temperatureC := 0, batteryMv := 0, wheelX := 0, wheelY := 0, wheelZ := 0, ret := s.ret, inputs := s.inputs } ∧
    ∀ a, Memory.read [] a = 0x00

/-- R143: IDLE changes `DONE` alone. -/
def Obligations.IdleOnlyClearsDone : Prop :=
  ∀ s : State, exec .idle s = .next { s with done := false }

/-- R144: BYTE stores, folds, counts, and leaves the output registers. -/
def Obligations.ByteStoresFoldsAndCounts : Prop :=
  ∀ (d : Byte) (s : State), ∃ t : State, exec (.byte d) s = .next t ∧
    (∀ a, Memory.read t.fb a = if a = s.cnt.val ∧ s.cnt.val < 20 then d else Memory.read s.fb a) ∧
    t.acc = (if s.cnt.val < 19 then s.acc ^^^ d else s.acc) ∧
    t.cnt.val = min (s.cnt.val + 1) 21 ∧
    t = { s with fb := t.fb, acc := t.acc, cnt := t.cnt, done := false }

/-- R145: LAST judges the frame with its last byte forwarded, writes every output register, and is ready for the next frame. -/
def Obligations.LastJudgesTheFrame : Prop :=
  ∀ (d : Byte) (s : State), ∃ t : State, exec (.last d) s = .next t ∧
    let n := min (s.cnt.val + 1) 21
    let xs := if s.cnt.val < 19 then s.acc ^^^ d else s.acc
    let F : Nat → Byte := fun a => if a = s.cnt.val ∧ s.cnt.val < 20 then d else Memory.read s.fb a
    let csum := xs = F 19
    let sync := F 0 = 0xAE ∧ F 1 = 0x5F
    let type := F 2 = 0x1B ∧ F 3 = 0x0F
    (n ≠ 20 → t.ok = false ∧ t.err = .errLen) ∧
    (n = 20 → ¬ csum → t.ok = false ∧ t.err = .errCsum) ∧
    (n = 20 → csum → ¬ sync → t.ok = false ∧ t.err = .errSync) ∧
    (n = 20 → csum → sync → ¬ type → t.ok = false ∧ t.err = .errFtype) ∧
    (n = 20 → csum → sync → type → t.ok = true ∧ t.err = .errNone) ∧
    (t.ok = true →
      t.timestamp = (F 4 ++ F 5 ++ F 6 ++ F 7 : BitVec (8 + 8 + 8 + 8)) ∧
      t.status = (if (F 8).extractLsb' 2 6 = 0 then (F 8).extractLsb' 0 2 else 3) ∧
      t.temperatureC = (F 9 ++ F 10 : BitVec (8 + 8)) ∧ t.batteryMv = (F 11 ++ F 12 : BitVec (8 + 8)) ∧
      t.wheelX = (F 13 ++ F 14 : BitVec (8 + 8)) ∧ t.wheelY = (F 15 ++ F 16 : BitVec (8 + 8)) ∧
      t.wheelZ = (F 17 ++ F 18 : BitVec (8 + 8))) ∧
    (t.ok = false → t.timestamp = 0 ∧ t.status = 3 ∧ t.temperatureC = 0 ∧ t.batteryMv = 0 ∧ t.wheelX = 0 ∧ t.wheelY = 0 ∧
      t.wheelZ = 0) ∧
    t.xsum = xs ∧ t.done = true ∧ t.cnt = 0 ∧ t.acc = 0 ∧ (∀ a, Memory.read t.fb a = F a) ∧
    t.ret = s.ret ∧ t.inputs = s.inputs

/-- R161 and R168: a frame of any length but 20 is rejected with `ERR_LEN`, whatever the buffer holds; the entry of the
rejection saves nothing and leaves the block ready for byte 0. -/
def Obligations.LengthRejectionIgnoresTheBuffer : Prop :=
  ∀ (d : Byte) (s : State), s.cnt ≠ 19 → ∃ m : Memory,
    (∀ a, Memory.read m a = if a = s.cnt.val ∧ s.cnt.val < 20 then d else Memory.read s.fb a) ∧
    exec (.last d) s = .next { State.reset with
      fb := m, done := true, err := .errLen, xsum := if s.cnt.val < 19 then s.acc ^^^ d else s.acc,
      ret := s.ret, inputs := s.inputs }

/-! Rules about the whole machine. -/

/-- R21 and R39: an operation of Layer F, and the reading of a code, touches no register of the block. That such an operation is
a step of the machine but no edge of `clk`, so that `DONE` is kept, is the model's (log 4, DEDUCED; log 5 for the codes). -/
def Obligations.OnlyTheFourStepsTouchRegisters : Prop :=
  ∀ (i : Instr) (s t : State), i.format ≠ .step → exec i s = .next t → s.sameBlock t ∧ t.inputs = s.inputs

/-- R39: the outputs other than `DONE` are written by LAST and RESET alone. -/
def Obligations.OutputsAreWrittenByLastAndResetAlone : Prop :=
  ∀ (i : Instr) (s t : State), i ≠ .reset → (∀ d, i ≠ .last d) → exec i s = .next t →
    t.ok = s.ok ∧ t.err = s.err ∧ t.xsum = s.xsum ∧ t.timestamp = s.timestamp ∧ t.status = s.status ∧
    t.temperatureC = s.temperatureC ∧ t.batteryMv = s.batteryMv ∧ t.wheelX = s.wheelX ∧ t.wheelY = s.wheelY ∧
    t.wheelZ = s.wheelZ

/-- R28: of the steps, LAST gives `DONE = 1` and every other gives 0. -/
def Obligations.DoneIsOneExactlyAfterLast : Prop :=
  ∀ (i : Instr) (s : State), i.format = .step →
    ∃ t, exec i s = .next t ∧ (t.done = true ↔ ∃ d, i = .last d)

/-- R37's invariants (marked derived by the spec) hold at reset. -/
def Obligations.InvariantHoldsAtReset : Prop := State.reset.Inv

/-- R37's invariants (marked derived by the spec) are kept by every step. -/
def Obligations.InvariantIsKeptByEveryStep : Prop :=
  ∀ s t : State, s.Inv → step s = .next t → t.Inv

/-- R35: where the invariants hold, the status triple has a legal value. -/
def Obligations.StatusTripleIsLegal : Prop :=
  ∀ s : State, s.Inv → legalSr s.sr

/-- R37.1 to R37.3 (marked derived by the spec): from any state, after a RESET and any port samples, `CNT`, `ACC` and `FB` track
the candidate being received. -/
def Obligations.PartialFrameIsTracked : Prop :=
  ∀ (s : State) (r : PortIn) (ps : List PortIn), r.rst = true →
    ∃ t : State, Host.Core.run Sys2Proof.core (ps.length + 1) (s.withPorts (r :: ps)) = .next t ∧
      t.cnt.val = min (openCandidate [] ps).length 21 ∧ t.acc = xorsum (openCandidate [] ps) ∧
      ∀ (a : Nat) (b : Byte), a < 20 → (openCandidate [] ps)[a]? = some b → Memory.read t.fb a = b

/-- R148: from any state, after a RESET, any port samples and a LAST step, the outputs are `PARSE_OUT` of the candidate that LAST
step ends, and of nothing else. -/
def Obligations.PortResultIsParseOut : Prop :=
  ∀ (s : State) (r l : PortIn) (ps : List PortIn), r.rst = true →
    l.rst = false → l.inValid = true → l.inLast = true →
    ∃ t : State, Host.Core.run Sys2Proof.core (ps.length + 2) (s.withPorts (r :: ps ++ [l])) = .next t ∧
      t.done = true ∧ t.out = parseOut (openCandidate [] ps ++ [l.inData])

/-- R204: the observation of a run is the list of `PARSE_OUT` of its completed candidates, in order. -/
def Obligations.ObservationIsParseOutOfEachCandidate : Prop :=
  ∀ (s : State) (r : PortIn) (ps : List PortIn), r.rst = true →
    (statesAfter (ps.length + 1) (s.withPorts (r :: ps))).length = ps.length + 1 ∧
    observation (ps.length + 1) (s.withPorts (r :: ps)) = (completed [] ps).map parseOut

/-- R36 (b), marked derived by the spec: what the buffer holds beyond the bytes of this frame never shows in a result. -/
def Obligations.StaleBytesNeverShow : Prop :=
  ∀ (d : Byte) (s₁ s₂ : State), s₁.cnt = s₂.cnt → s₁.acc = s₂.acc →
    (∀ a < s₁.cnt.val, Memory.read s₁.fb a = Memory.read s₂.fb a) →
    ∃ t₁ t₂ : State, exec (.last d) s₁ = .next t₁ ∧ exec (.last d) s₂ = .next t₂ ∧ t₁.out = t₂.out

/-- R203, "generate a checksum": nineteen bytes presented as a candidate give the byte to append in `XSUM`, and the completed
frame is then accepted. -/
def Obligations.ChecksumGenerationThenAcceptance : Prop :=
  ∀ (s : State) (r : PortIn) (P : List Byte), r.rst = true → P.length = 15 →
    let bytes := [0xAE, 0x5F, 0x1B, 0x0F] ++ P
    ∃ (k : Byte) (rec : HealthRecord),
      observation 40 (s.withPorts (r :: presenting bytes ++ presenting (bytes ++ [k]))) =
        [{ ok := false, err := .errLen, xsum := k, record := nullRecord },
         { ok := true, err := .errNone, xsum := k, record := rec }]
end

