-- ==== Sys2Proof/Laws/Frame.lean ====
section
/-! SUPPORT. The laws of frames, fields, the checksum, VALIDATE and PARSE. -/

namespace Sys2Proof

@[simp] theorem RawFrame.byte_mk (l : List Byte) (h : l.length = 20) (i : Fin 20) :
    (RawFrame.mk l h).byte i = l[i.val]'(by rw [h]; exact i.isLt) := rfl

/-- A frame is its twenty bytes. -/
theorem RawFrame.bytes_eq (f : RawFrame) : f.bytes =
    [f.byte 0, f.byte 1, f.byte 2, f.byte 3, f.byte 4, f.byte 5, f.byte 6, f.byte 7, f.byte 8, f.byte 9, f.byte 10, f.byte 11,
     f.byte 12, f.byte 13, f.byte 14, f.byte 15, f.byte 16, f.byte 17, f.byte 18, f.byte 19] := by
  obtain ⟨l, h⟩ := f
  match l, h with
  | [_, _, _, _, _, _, _, _, _, _, _, _, _, _, _, _, _, _, _, _], _ => rfl

/-! The fields are the concatenations of their bytes (R120 to R126). -/

theorem extTs_eq (f : RawFrame) :
    extTs f = (f.byte 4 ++ f.byte 5 ++ f.byte 6 ++ f.byte 7 : BitVec (8 + 8 + 8 + 8)) := rfl
theorem extSt_eq (f : RawFrame) : extSt f = f.byte 8 := rfl
theorem extTemp_eq (f : RawFrame) : extTemp f = (f.byte 9 ++ f.byte 10 : BitVec (8 + 8)) := rfl
theorem extBatt_eq (f : RawFrame) : extBatt f = (f.byte 11 ++ f.byte 12 : BitVec (8 + 8)) := rfl
theorem extWx_eq (f : RawFrame) : extWx f = (f.byte 13 ++ f.byte 14 : BitVec (8 + 8)) := rfl
theorem extWy_eq (f : RawFrame) : extWy f = (f.byte 15 ++ f.byte 16 : BitVec (8 + 8)) := rfl
theorem extWz_eq (f : RawFrame) : extWz f = (f.byte 17 ++ f.byte 18 : BitVec (8 + 8)) := rfl

/-! Splitting a value into bytes undoes the big-endian read, and the other way round. -/

/-- Bit `i` of two bytes joined. -/
theorem getLsbD_join16 (a b : Byte) (i : Nat) :
    (a ++ b : BitVec (8 + 8)).getLsbD i = if i < 8 then b.getLsbD i else a.getLsbD (i - 8) :=
  BitVec.getLsbD_append

/-- Bit `i` of four bytes joined. -/
theorem getLsbD_join32 (a b c d : Byte) (i : Nat) :
    (a ++ b ++ c ++ d : BitVec (8 + 8 + 8 + 8)).getLsbD i =
      if i < 8 then d.getLsbD i else if i < 16 then c.getLsbD (i - 8)
      else if i < 24 then b.getLsbD (i - 16) else a.getLsbD (i - 24) := by
  rw [BitVec.getLsbD_append, BitVec.getLsbD_append, BitVec.getLsbD_append]
  grind

/-- A byte-wide slice, bit by bit. -/
theorem extractByte_eq {n : Nat} (v : BitVec n) (k : Nat) (x : Byte)
    (h : ∀ i < 8, v.getLsbD (k + i) = x.getLsbD i) : v.extractLsb' k 8 = x := by
  apply BitVec.eq_of_getLsbD_eq
  intro i hi
  rw [BitVec.getLsbD_extractLsb', h i hi]
  simp [hi]

@[simp] theorem bytes16_append (a b : Byte) : bytes16 (a ++ b : BitVec (8 + 8)) = [a, b] := by
  have ha := extractByte_eq (a ++ b : BitVec (8 + 8)) 8 a (by intro i hi; rw [getLsbD_join16]; grind)
  have hb := extractByte_eq (a ++ b : BitVec (8 + 8)) 0 b (by intro i hi; rw [getLsbD_join16]; grind)
  exact congrArg₂ (fun x y => [x, y]) ha hb

@[simp] theorem bytes32_append (a b c d : Byte) :
    bytes32 (a ++ b ++ c ++ d : BitVec (8 + 8 + 8 + 8)) = [a, b, c, d] := by
  have h := extractByte_eq (a ++ b ++ c ++ d : BitVec (8 + 8 + 8 + 8))
  have ha := h 24 a (by intro i hi; rw [getLsbD_join32]; grind)
  have hb := h 16 b (by intro i hi; rw [getLsbD_join32]; grind)
  have hc := h 8 c (by intro i hi; rw [getLsbD_join32]; grind)
  have hd := h 0 d (by intro i hi; rw [getLsbD_join32]; grind)
  exact congr (congrArg₂ (fun x y (z : List Byte) => x :: y :: z) ha hb) (congrArg₂ (fun x y => [x, y]) hc hd)

@[simp] theorem append_bytes16 (v : BitVec 16) :
    (v.extractLsb' 8 8 ++ v.extractLsb' 0 8 : BitVec (8 + 8)) = v := by
  ext i hi
  simp only [BitVec.getElem_append, BitVec.getElem_extractLsb']
  split
  · simp [BitVec.getLsbD_eq_getElem hi]
  · rw [show 8 + (i - 8) = i by omega]; simp [BitVec.getLsbD_eq_getElem hi]

@[simp] theorem append_bytes32 (v : BitVec 32) :
    (v.extractLsb' 24 8 ++ v.extractLsb' 16 8 ++ v.extractLsb' 8 8 ++ v.extractLsb' 0 8 : BitVec (8 + 8 + 8 + 8)) = v := by
  ext i hi
  simp only [BitVec.getElem_append, BitVec.getElem_extractLsb']
  split
  · simp [BitVec.getLsbD_eq_getElem hi]
  · split
    · rw [show 8 + (i - 8) = i by omega]; simp [BitVec.getLsbD_eq_getElem hi]
    · split
      · rw [show 16 + (i - 8 - 8) = i by omega]; simp [BitVec.getLsbD_eq_getElem hi]
      · rw [show 24 + (i - 8 - 8 - 8) = i by omega]; simp [BitVec.getLsbD_eq_getElem hi]

/-! The frame word (R10). -/

/-- The bits of a word built by shifting bytes in, most significant byte first. -/
theorem getLsbD_shiftedIn (l : List Byte) (w : BitVec 160) (p : Nat) (hp : p < 160) :
    (l.foldl (fun (w : BitVec 160) (b : Byte) => w <<< 8 ||| b.setWidth 160) w).getLsbD p =
      if p < 8 * l.length then (l.getD (l.length - 1 - p / 8) 0).getLsbD (p % 8) else w.getLsbD (p - 8 * l.length) := by
  induction l using List.reverseRecOn generalizing p with
  | nil => simp
  | append_singleton l a ih =>
    rw [List.foldl_append]
    simp only [List.foldl_cons, List.foldl_nil, BitVec.getLsbD_or, BitVec.getLsbD_shiftLeft, BitVec.getLsbD_setWidth, hp,
      List.length_append, List.length_singleton, decide_true, Bool.true_and]
    by_cases h8 : p < 8
    · have hd : p / 8 = 0 := by omega
      have hm : p % 8 = p := by omega
      simp [h8, hd, hm, show p < 8 * (l.length + 1) by omega]
    · rw [ih _ (by omega), BitVec.getLsbD_of_ge a p (by omega)]
      simp only [h8, decide_false, Bool.not_false, Bool.true_and, Bool.or_false]
      by_cases h : p - 8 < 8 * l.length
      · have hi : l.length + 1 - 1 - p / 8 = l.length - 1 - (p - 8) / 8 := by omega
        have hm : (p - 8) % 8 = p % 8 := by omega
        rw [if_pos h, if_pos (by omega), hi, hm, List.getD_append _ _ _ _ (by omega)]
      · rw [if_neg h, if_neg (by omega)]
        congr 1
        omega

/-- Bit `b` of byte `i`, in the frame word. -/
theorem frameWord_getLsbD (f : RawFrame) (i : Fin 20) (b : Nat) (hb : b < 8) :
    (frameWord f).getLsbD (152 - 8 * i.val + b) = (f.byte i).getLsbD b := by
  rw [frameWord, getLsbD_shiftedIn _ _ _ (by omega), f.len, if_pos (by omega)]
  have hi : 20 - 1 - (152 - 8 * i.val + b) / 8 = i.val := by omega
  have hm : (152 - 8 * i.val + b) % 8 = b := by omega
  rw [hi, hm, RawFrame.byte, List.getD_eq_getElem _ _ (by rw [f.len]; exact i.isLt)]

/-! The checksum (R101). -/

@[simp] theorem xorsum_nil : xorsum [] = 0x00 := rfl

/-- A byte at an offset below 19 enters the checksum; a later byte does not. -/
theorem xorsum_append (c : Candidate) (d : Byte) :
    xorsum (c ++ [d]) = if c.length < 19 then xorsum c ^^^ d else xorsum c := by
  unfold xorsum
  split
  · next h =>
    rw [List.take_of_length_le (by simp [Config.csumSpan]; omega),
      List.take_of_length_le (by simp only [Config.csumSpan]; omega), List.foldl_append]
    rfl
  · next h => rw [List.take_append_of_le_length (by simp only [Config.csumSpan]; omega)]

/-- Only the first nineteen bytes matter. -/
theorem xorsum_take (c : Candidate) (n : Nat) (h : 19 ≤ n) : xorsum (c.take n) = xorsum c := by
  simp [xorsum, List.take_take, Nat.min_eq_left h]

/-! The checks (R100 to R105). -/

theorem csumOk_iff (xs : Byte) (f : RawFrame) : csumOk xs f = true ↔ xs = f.byte 19 := by simp [csumOk]

theorem syncOk_iff (f : RawFrame) : syncOk f = true ↔ f.byte 0 = 0xAE ∧ f.byte 1 = 0x5F := by
  have h : syncOk f = ((f.byte 0 ++ f.byte 1 : BitVec (8 + 8)) == (0xAE#8 ++ 0x5F#8 : BitVec (8 + 8))) := rfl
  rw [h, beq_iff_eq]
  constructor
  · intro h
    have hb := congrArg bytes16 h
    rw [bytes16_append, bytes16_append] at hb
    simpa using hb
  · rintro ⟨h0, h1⟩
    rw [h0, h1]
    rfl

theorem typeOk_iff (f : RawFrame) : typeOk f = true ↔ f.byte 2 = 0x1B ∧ f.byte 3 = 0x0F := by simp [typeOk]

/-- No check fails iff all four flags hold. -/
theorem firstFailing_eq_none_iff (l c y t : Bool) :
    firstFailing l c y t = none ↔ l = true ∧ c = true ∧ y = true ∧ t = true := by
  revert l c y t; decide

/-- VALIDATE on a 20-byte frame is the priority choice over its flags (R105). -/
theorem validate_bytes (f : RawFrame) :
    validate f.bytes =
      match firstFailing true (csumOk (xorsum f.bytes) f) (syncOk f) (typeOk f) with
      | some e => .err e
      | none => .ok f := by
  obtain ⟨l, h⟩ := f
  unfold validate firstFailing
  rw [dif_pos h]
  cases hc : csumOk (xorsum l) ⟨l, h⟩ <;> cases hs : syncOk ⟨l, h⟩ <;> cases ht : typeOk ⟨l, h⟩ <;> simp [hc, hs, ht]

/-- VALIDATE on any other length. -/
theorem validate_of_length_ne (cand : Candidate) (h : cand.length ≠ 20) : validate cand = .err .inputTypeOrLength := by
  simp [validate, h]

/-- VALIDATE accepts a frame iff its checksum, sync word, type and declared length are right. -/
theorem validate_eq_ok_iff (f : RawFrame) :
    validate f.bytes = .ok f ↔ xorsum f.bytes = f.byte 19 ∧ (f.byte 0 = 0xAE ∧ f.byte 1 = 0x5F) ∧
      (f.byte 2 = 0x1B ∧ f.byte 3 = 0x0F) := by
  rw [validate_bytes, ← csumOk_iff, ← syncOk_iff, ← typeOk_iff]
  cases csumOk (xorsum f.bytes) f <;> cases syncOk f <;> cases typeOk f <;> simp [firstFailing]

/-- What VALIDATE accepts is the candidate itself. -/
theorem validate_ok (cand : Candidate) (f : RawFrame) (h : validate cand = .ok f) : f.bytes = cand := by
  by_cases hl : cand.length = 20
  · have hv := validate_bytes ⟨cand, hl⟩
    simp only [h] at hv
    split at hv
    · cases hv
    · injection hv with hv; rw [hv]
  · rw [validate_of_length_ne cand hl] at h; cases h

/-- PARSE_OUT of an accepted frame. -/
theorem parseOut_of_ok (cand : Candidate) (f : RawFrame) (h : validate cand = .ok f) :
    parseOut cand = { ok := true, err := .errNone, xsum := xorsum cand, record := recordOf f } := by
  simp [parseOut, parse, h]

/-- PARSE_OUT of a rejected candidate. -/
theorem parseOut_of_err (cand : Candidate) (e : ParseError) (h : validate cand = .err e) :
    parseOut cand = { ok := false, err := e.errCode, xsum := xorsum cand, record := nullRecord } := by
  simp [parseOut, parse, h]

/-- Splitting and joining the health packet's bytes. -/
theorem healthBytes_length (t : BitVec 32) (c : Byte) (temp batt wx wy wz : BitVec 16) (k : Byte) :
    (healthBytes t c temp batt wx wy wz k).length = 20 := rfl

@[simp] theorem statusOfCode_code (v : StatusVariant) : statusOfCode v.code = v := by cases v <;> rfl

@[simp] theorem code_statusOfCode (c : BitVec 2) : (statusOfCode c).code = c := by revert c; decide

end Sys2Proof
end

