-- ==== Sys2Proof/Laws/Memory.lean ====
section
/-! SUPPORT. The laws of the frame buffer: what a read gives after a write, and that the canonical form is kept. -/

namespace Sys2Proof.Machine

@[simp] theorem Memory.read_nil (a : Nat) : Memory.read [] a = 0x00 := rfl

@[simp] theorem Memory.read_cons (k : Nat) (v : Byte) (m : Memory) (a : Nat) :
    Memory.read ((k, v) :: m) a = if k = a then v else Memory.read m a := rfl

/-- Without its cell, an address reads as unlisted, and every other address reads as before. -/
theorem Memory.read_filter (m : Memory) (a b : Nat) :
    Memory.read (m.filter (fun c => c.1 != a)) b = if b = a then 0x00 else Memory.read m b := by
  induction m with
  | nil => simp
  | cons c m ih =>
    obtain ⟨k, v⟩ := c
    by_cases hk : k = a
    · subst hk
      by_cases hb : k = b
      · subst hb; simpa using ih
      · simp [ih, hb, Ne.symm hb]
    · rw [List.filter_cons_of_pos (by simpa using hk)]
      by_cases hb : k = b
      · subst hb; simp [hk]
      · simp [hb, ih]

/-- A cell inserted where its address has none is the one read there. -/
theorem Memory.read_insert (m : Memory) (a b : Nat) (v : Byte) (h : ∀ c ∈ m, c.1 ≠ a) :
    Memory.read (Memory.insert m a v) b = if b = a then v else Memory.read m b := by
  induction m with
  | nil => simp [Memory.insert, eq_comm]
  | cons c m ih =>
    obtain ⟨k, x⟩ := c
    have hk : k ≠ a := h (k, x) (by simp)
    have ih' := ih (fun c hc => h c (by simp [hc]))
    unfold Memory.insert
    split
    · simp [eq_comm]
    · simp only [Memory.read_cons, ih']
      by_cases hb : k = b
      · subst hb; simp [hk]
      · simp [hb]

/-- Read after write, at every address. -/
@[simp] theorem Memory.read_write (m : Memory) (a b : Nat) (v : Byte) :
    Memory.read (Memory.write m a v) b = if b = a then v else Memory.read m b := by
  unfold Memory.write
  split
  · next h => simp [Memory.read_filter, h]
  · rw [Memory.read_insert _ _ _ _ (by simp), Memory.read_filter]
    split <;> simp_all

/-- Every cell of an insertion is the new one or an old one. -/
theorem Memory.mem_insert (m : Memory) (a : Nat) (v : Byte) (c : Host.Cell) (h : c ∈ Memory.insert m a v) :
    c = (a, v) ∨ c ∈ m := by
  induction m with
  | nil => simpa [Memory.insert] using h
  | cons x m ih =>
    obtain ⟨k, y⟩ := x
    unfold Memory.insert at h
    split at h
    · simpa using h
    · rcases List.mem_cons.mp h with rfl | h
      · simp
      · rcases ih h with h | h <;> simp [h]

/-- An insertion where the address has no cell keeps the rising order. -/
theorem Memory.insert_rising (m : Memory) (a : Nat) (v : Byte) (h : ∀ c ∈ m, c.1 ≠ a)
    (hm : List.Pairwise (fun x y => x.1 < y.1) m) : List.Pairwise (fun x y => x.1 < y.1) (Memory.insert m a v) := by
  induction m with
  | nil => simp [Memory.insert]
  | cons c m ih =>
    obtain ⟨k, x⟩ := c
    have hk : k ≠ a := h (k, x) (by simp)
    have hc := List.pairwise_cons.mp hm
    unfold Memory.insert
    split
    · next hlt =>
      refine List.pairwise_cons.mpr ⟨fun c hc' => ?_, hm⟩
      rcases List.mem_cons.mp hc' with rfl | hc'
      · exact hlt
      · exact Nat.lt_trans hlt (hc.1 c hc')
    · next hnlt =>
      refine List.pairwise_cons.mpr ⟨fun c hc' => ?_, ih (fun c hc' => h c (by simp [hc'])) hc.2⟩
      rcases Memory.mem_insert m a v c hc' with rfl | hc'
      · simp only; omega
      · exact hc.1 c hc'

/-- A write in the address space keeps the canonical form. -/
theorem Memory.write_wf (m : Memory) (a : Nat) (v : Byte) (ha : a < 20) (hm : Memory.wf m) :
    Memory.wf (Memory.write m a v) := by
  have hrest : Memory.wf (m.filter (fun c => c.1 != a)) :=
    ⟨hm.1.filter _, fun c hc => hm.2 c (List.mem_of_mem_filter hc)⟩
  unfold Memory.write
  split
  · exact hrest
  · next hv =>
    refine ⟨Memory.insert_rising _ _ _ (by simp) hrest.1, fun c hc => ?_⟩
    rcases Memory.mem_insert _ _ _ _ hc with rfl | hc
    · exact ⟨ha, hv⟩
    · exact hrest.2 c hc

/-- Reset's frame buffer is canonical. -/
theorem Memory.wf_reset : Memory.wf State.reset.fb := by simp [Memory.wf, State.reset]

/-- The byte a step accepts: stored at `CNT` if that is in the frame space, every other address as before. -/
theorem read_storedByte (s : State) (d : Byte) (a : Nat) :
    Memory.read (storedByte s d) a = if a = s.cnt.val ∧ s.cnt.val < 20 then d else Memory.read s.fb a := by
  unfold storedByte
  split
  · next h => simp [h]
  · next h => rw [if_neg (fun hc => h hc.2)]

/-- Accepting a byte keeps the canonical form. -/
theorem storedByte_wf (s : State) (d : Byte) (h : Memory.wf s.fb) : Memory.wf (storedByte s d) := by
  unfold storedByte
  split
  · next hlt => exact Memory.write_wf _ _ _ hlt h
  · exact h

@[simp] theorem frameOf_bytes (m : Memory) : (frameOf m).bytes = (List.range 20).map (Memory.read m) := rfl

/-- The frame the buffer holds has at each offset the byte read there. -/
@[simp] theorem frameOf_byte (m : Memory) (i : Fin 20) : (frameOf m).byte i = Memory.read m i.val := by
  simp [RawFrame.byte]

@[simp] theorem bump_val (c : Fin 22) : (bump c).val = min (c.val + 1) 21 := rfl

end Sys2Proof.Machine
end

