-- ==== Sys2Proof/Laws/State.lean ====
section
/-! SUPPORT. One lemma per field for every named update of the state, each true by rfl. -/

namespace Sys2Proof.Machine

variable (s : State)

/-! A Layer F result handed to the caller. -/

@[simp] theorem State.returns_fb (r : Ret) : (s.returns r).fb = s.fb := rfl
@[simp] theorem State.returns_cnt (r : Ret) : (s.returns r).cnt = s.cnt := rfl
@[simp] theorem State.returns_acc (r : Ret) : (s.returns r).acc = s.acc := rfl
@[simp] theorem State.returns_done (r : Ret) : (s.returns r).done = s.done := rfl
@[simp] theorem State.returns_ok (r : Ret) : (s.returns r).ok = s.ok := rfl
@[simp] theorem State.returns_err (r : Ret) : (s.returns r).err = s.err := rfl
@[simp] theorem State.returns_xsum (r : Ret) : (s.returns r).xsum = s.xsum := rfl
@[simp] theorem State.returns_timestamp (r : Ret) : (s.returns r).timestamp = s.timestamp := rfl
@[simp] theorem State.returns_status (r : Ret) : (s.returns r).status = s.status := rfl
@[simp] theorem State.returns_temperatureC (r : Ret) : (s.returns r).temperatureC = s.temperatureC := rfl
@[simp] theorem State.returns_batteryMv (r : Ret) : (s.returns r).batteryMv = s.batteryMv := rfl
@[simp] theorem State.returns_wheelX (r : Ret) : (s.returns r).wheelX = s.wheelX := rfl
@[simp] theorem State.returns_wheelY (r : Ret) : (s.returns r).wheelY = s.wheelY := rfl
@[simp] theorem State.returns_wheelZ (r : Ret) : (s.returns r).wheelZ = s.wheelZ := rfl
@[simp] theorem State.returns_ret (r : Ret) : (s.returns r).ret = some r := rfl
@[simp] theorem State.returns_inputs (r : Ret) : (s.returns r).inputs = s.inputs := rfl

/-! The input at hand used up. -/

@[simp] theorem State.consume_fb : (s.consume).fb = s.fb := rfl
@[simp] theorem State.consume_cnt : (s.consume).cnt = s.cnt := rfl
@[simp] theorem State.consume_acc : (s.consume).acc = s.acc := rfl
@[simp] theorem State.consume_done : (s.consume).done = s.done := rfl
@[simp] theorem State.consume_ok : (s.consume).ok = s.ok := rfl
@[simp] theorem State.consume_err : (s.consume).err = s.err := rfl
@[simp] theorem State.consume_xsum : (s.consume).xsum = s.xsum := rfl
@[simp] theorem State.consume_timestamp : (s.consume).timestamp = s.timestamp := rfl
@[simp] theorem State.consume_status : (s.consume).status = s.status := rfl
@[simp] theorem State.consume_temperatureC : (s.consume).temperatureC = s.temperatureC := rfl
@[simp] theorem State.consume_batteryMv : (s.consume).batteryMv = s.batteryMv := rfl
@[simp] theorem State.consume_wheelX : (s.consume).wheelX = s.wheelX := rfl
@[simp] theorem State.consume_wheelY : (s.consume).wheelY = s.wheelY := rfl
@[simp] theorem State.consume_wheelZ : (s.consume).wheelZ = s.wheelZ := rfl
@[simp] theorem State.consume_ret : (s.consume).ret = s.ret := rfl
@[simp] theorem State.consume_inputs : (s.consume).inputs = s.inputs.tail := rfl

/-! A byte accepted into the frame buffer. -/

@[simp] theorem State.store_fb (d : Byte) : (s.store d).fb = storedByte s d := rfl
@[simp] theorem State.store_cnt (d : Byte) : (s.store d).cnt = s.cnt := rfl
@[simp] theorem State.store_acc (d : Byte) : (s.store d).acc = s.acc := rfl
@[simp] theorem State.store_done (d : Byte) : (s.store d).done = s.done := rfl
@[simp] theorem State.store_ok (d : Byte) : (s.store d).ok = s.ok := rfl
@[simp] theorem State.store_err (d : Byte) : (s.store d).err = s.err := rfl
@[simp] theorem State.store_xsum (d : Byte) : (s.store d).xsum = s.xsum := rfl
@[simp] theorem State.store_timestamp (d : Byte) : (s.store d).timestamp = s.timestamp := rfl
@[simp] theorem State.store_status (d : Byte) : (s.store d).status = s.status := rfl
@[simp] theorem State.store_temperatureC (d : Byte) : (s.store d).temperatureC = s.temperatureC := rfl
@[simp] theorem State.store_batteryMv (d : Byte) : (s.store d).batteryMv = s.batteryMv := rfl
@[simp] theorem State.store_wheelX (d : Byte) : (s.store d).wheelX = s.wheelX := rfl
@[simp] theorem State.store_wheelY (d : Byte) : (s.store d).wheelY = s.wheelY := rfl
@[simp] theorem State.store_wheelZ (d : Byte) : (s.store d).wheelZ = s.wheelZ := rfl
@[simp] theorem State.store_ret (d : Byte) : (s.store d).ret = s.ret := rfl
@[simp] theorem State.store_inputs (d : Byte) : (s.store d).inputs = s.inputs := rfl

/-! A result presented on the output registers. -/

@[simp] theorem State.present_fb (o : ParseOut) : (s.present o).fb = s.fb := rfl
@[simp] theorem State.present_cnt (o : ParseOut) : (s.present o).cnt = 0 := rfl
@[simp] theorem State.present_acc (o : ParseOut) : (s.present o).acc = 0x00 := rfl
@[simp] theorem State.present_done (o : ParseOut) : (s.present o).done = true := rfl
@[simp] theorem State.present_ok (o : ParseOut) : (s.present o).ok = o.ok := rfl
@[simp] theorem State.present_err (o : ParseOut) : (s.present o).err = o.err := rfl
@[simp] theorem State.present_xsum (o : ParseOut) : (s.present o).xsum = o.xsum := rfl
@[simp] theorem State.present_timestamp (o : ParseOut) : (s.present o).timestamp = o.record.timestamp := rfl
@[simp] theorem State.present_status (o : ParseOut) : (s.present o).status = o.record.status.code := rfl
@[simp] theorem State.present_temperatureC (o : ParseOut) : (s.present o).temperatureC = o.record.temperatureC := rfl
@[simp] theorem State.present_batteryMv (o : ParseOut) : (s.present o).batteryMv = o.record.batteryMv := rfl
@[simp] theorem State.present_wheelX (o : ParseOut) : (s.present o).wheelX = o.record.wheelX := rfl
@[simp] theorem State.present_wheelY (o : ParseOut) : (s.present o).wheelY = o.record.wheelY := rfl
@[simp] theorem State.present_wheelZ (o : ParseOut) : (s.present o).wheelZ = o.record.wheelZ := rfl
@[simp] theorem State.present_ret (o : ParseOut) : (s.present o).ret = s.ret := rfl
@[simp] theorem State.present_inputs (o : ParseOut) : (s.present o).inputs = s.inputs := rfl

/-! Every register of the block at its reset value. -/

@[simp] theorem State.resetBlock_fb : (s.resetBlock).fb = [] := rfl
@[simp] theorem State.resetBlock_cnt : (s.resetBlock).cnt = 0 := rfl
@[simp] theorem State.resetBlock_acc : (s.resetBlock).acc = 0x00 := rfl
@[simp] theorem State.resetBlock_done : (s.resetBlock).done = false := rfl
@[simp] theorem State.resetBlock_ok : (s.resetBlock).ok = false := rfl
@[simp] theorem State.resetBlock_err : (s.resetBlock).err = .errNone := rfl
@[simp] theorem State.resetBlock_xsum : (s.resetBlock).xsum = 0x00 := rfl
@[simp] theorem State.resetBlock_timestamp : (s.resetBlock).timestamp = 0 := rfl
@[simp] theorem State.resetBlock_status : (s.resetBlock).status = 3 := rfl
@[simp] theorem State.resetBlock_temperatureC : (s.resetBlock).temperatureC = 0 := rfl
@[simp] theorem State.resetBlock_batteryMv : (s.resetBlock).batteryMv = 0 := rfl
@[simp] theorem State.resetBlock_wheelX : (s.resetBlock).wheelX = 0 := rfl
@[simp] theorem State.resetBlock_wheelY : (s.resetBlock).wheelY = 0 := rfl
@[simp] theorem State.resetBlock_wheelZ : (s.resetBlock).wheelZ = 0 := rfl
@[simp] theorem State.resetBlock_ret : (s.resetBlock).ret = s.ret := rfl
@[simp] theorem State.resetBlock_inputs : (s.resetBlock).inputs = s.inputs := rfl

/-! Port samples presented next. -/

@[simp] theorem State.withPorts_fb (ps : List PortIn) : (s.withPorts ps).fb = s.fb := rfl
@[simp] theorem State.withPorts_cnt (ps : List PortIn) : (s.withPorts ps).cnt = s.cnt := rfl
@[simp] theorem State.withPorts_acc (ps : List PortIn) : (s.withPorts ps).acc = s.acc := rfl
@[simp] theorem State.withPorts_done (ps : List PortIn) : (s.withPorts ps).done = s.done := rfl
@[simp] theorem State.withPorts_ok (ps : List PortIn) : (s.withPorts ps).ok = s.ok := rfl
@[simp] theorem State.withPorts_err (ps : List PortIn) : (s.withPorts ps).err = s.err := rfl
@[simp] theorem State.withPorts_xsum (ps : List PortIn) : (s.withPorts ps).xsum = s.xsum := rfl
@[simp] theorem State.withPorts_timestamp (ps : List PortIn) : (s.withPorts ps).timestamp = s.timestamp := rfl
@[simp] theorem State.withPorts_status (ps : List PortIn) : (s.withPorts ps).status = s.status := rfl
@[simp] theorem State.withPorts_temperatureC (ps : List PortIn) : (s.withPorts ps).temperatureC = s.temperatureC := rfl
@[simp] theorem State.withPorts_batteryMv (ps : List PortIn) : (s.withPorts ps).batteryMv = s.batteryMv := rfl
@[simp] theorem State.withPorts_wheelX (ps : List PortIn) : (s.withPorts ps).wheelX = s.wheelX := rfl
@[simp] theorem State.withPorts_wheelY (ps : List PortIn) : (s.withPorts ps).wheelY = s.wheelY := rfl
@[simp] theorem State.withPorts_wheelZ (ps : List PortIn) : (s.withPorts ps).wheelZ = s.wheelZ := rfl
@[simp] theorem State.withPorts_ret (ps : List PortIn) : (s.withPorts ps).ret = s.ret := rfl
@[simp] theorem State.withPorts_inputs (ps : List PortIn) : (s.withPorts ps).inputs = ps.map Presented.port := rfl

/-! A table word presented next. -/

@[simp] theorem State.withFetchWord_fb (n w : Nat) : (s.withFetchWord n w).fb = s.fb := rfl
@[simp] theorem State.withFetchWord_cnt (n w : Nat) : (s.withFetchWord n w).cnt = s.cnt := rfl
@[simp] theorem State.withFetchWord_acc (n w : Nat) : (s.withFetchWord n w).acc = s.acc := rfl
@[simp] theorem State.withFetchWord_done (n w : Nat) : (s.withFetchWord n w).done = s.done := rfl
@[simp] theorem State.withFetchWord_ok (n w : Nat) : (s.withFetchWord n w).ok = s.ok := rfl
@[simp] theorem State.withFetchWord_err (n w : Nat) : (s.withFetchWord n w).err = s.err := rfl
@[simp] theorem State.withFetchWord_xsum (n w : Nat) : (s.withFetchWord n w).xsum = s.xsum := rfl
@[simp] theorem State.withFetchWord_timestamp (n w : Nat) : (s.withFetchWord n w).timestamp = s.timestamp := rfl
@[simp] theorem State.withFetchWord_status (n w : Nat) : (s.withFetchWord n w).status = s.status := rfl
@[simp] theorem State.withFetchWord_temperatureC (n w : Nat) : (s.withFetchWord n w).temperatureC = s.temperatureC := rfl
@[simp] theorem State.withFetchWord_batteryMv (n w : Nat) : (s.withFetchWord n w).batteryMv = s.batteryMv := rfl
@[simp] theorem State.withFetchWord_wheelX (n w : Nat) : (s.withFetchWord n w).wheelX = s.wheelX := rfl
@[simp] theorem State.withFetchWord_wheelY (n w : Nat) : (s.withFetchWord n w).wheelY = s.wheelY := rfl
@[simp] theorem State.withFetchWord_wheelZ (n w : Nat) : (s.withFetchWord n w).wheelZ = s.wheelZ := rfl
@[simp] theorem State.withFetchWord_ret (n w : Nat) : (s.withFetchWord n w).ret = s.ret := rfl
@[simp] theorem State.withFetchWord_inputs (n w : Nat) : (s.withFetchWord n w).inputs = presentedOfTableWord n w :: s.inputs := rfl

end Sys2Proof.Machine
end

