-- ==== Sys2Proof/Laws/Exec.lean ====
section
/-! SUPPORT. What the shared operations can do, said once: the rejection and the acceptance of a frame, and LAST's two ends. -/

namespace Sys2Proof.Machine

/-- The outputs after a result is presented are that result. -/
@[simp] theorem State.present_out (s : State) (o : ParseOut) : (s.present o).out = o := by
  simp [State.out, State.record]

/-- The outputs after a rejection (R168). -/
@[simp] theorem State.reject_out (s : State) (e : ParseError) (xs : Byte) :
    (s.reject e xs).out = { ok := false, err := e.errCode, xsum := xs, record := nullRecord } :=
  State.present_out _ _

/-- The outputs after an acceptance (R145). -/
@[simp] theorem State.accept_out (s : State) (r : HealthRecord) (xs : Byte) :
    (s.accept r xs).out = { ok := true, err := .errNone, xsum := xs, record := r } :=
  State.present_out _ _

/-- LAST presents exactly one result: the outputs are `o`, the byte is stored, the in-frame registers are cleared. -/
theorem execLast_presents (d : Byte) (s : State) :
    ∃ o : ParseOut, execLast d s = .next ((s.store d).present o) ∧ o.xsum = foldedByte s d ∧
      ((o.ok = true ∧ o.err = .errNone ∧ s.cnt.val = 19 ∧ o.record = recordOf (frameOf (storedByte s d))) ∨
        (o.ok = false ∧ o.err ≠ .errNone ∧ o.record = nullRecord)) := by
  unfold execLast
  cases hf : firstFailing ((bump s.cnt).val == Config.frameLen) (csumOk (foldedByte s d) (frameOf (storedByte s d)))
      (syncOk (frameOf (storedByte s d))) (typeOk (frameOf (storedByte s d))) with
  | none =>
    refine ⟨_, by simp only [hf]; rfl, rfl, .inl ⟨rfl, rfl, ?_, rfl⟩⟩
    have hn := ((firstFailing_eq_none_iff _ _ _ _).mp hf).1
    simp only [bump_val, beq_iff_eq, Config.frameLen] at hn
    omega
  | some e =>
    refine ⟨_, by simp only [hf]; rfl, rfl, .inr ⟨rfl, ?_, rfl⟩⟩
    cases e <;> simp [ParseError.errCode]

/-- A Layer F operation, or the reading of a code, that answers a next state hands a result to its caller and does no more. -/
theorem exec_layerF (i : Instr) (s t : State) (hi : i.format ≠ .step) (h : exec i s = .next t) :
    ∃ r, t = s.returns r := by
  cases i with
  | decode f =>
    simp only [exec, execDecode] at h
    split at h
    · exact ⟨_, by injection h with h; exact h.symm⟩
    · cases h
  | reset => simp [Instr.format] at hi
  | idle => simp [Instr.format] at hi
  | byte _ => simp [Instr.format] at hi
  | last _ => simp [Instr.format] at hi
  | _ => injection h with h; exact ⟨_, h.symm⟩

end Sys2Proof.Machine
end

