-- ==== Sys2Proof/Laws/PerInstr.lean ====
section
/-! SUPPORT. A statement about every operation as syntax, one lemma per constructor. -/

namespace Sys2Proof.Laws.EncodedFormat

/-- The encoder writes an operation in the format its row of spec/opcode_table.json has (R81). -/
def Statement (i : Instr) : Prop := (encode i).format = i.format

theorem ae1Health (t : BitVec 32) (c : Byte) (temp batt wx wy wz : BitVec 16) (k : Byte) : Statement (.ae1Health t c temp batt wx wy wz k) := rfl
theorem scodeSafe : Statement .scodeSafe := rfl
theorem scodeNominal : Statement .scodeNominal := rfl
theorem scodeScience : Statement .scodeScience := rfl
theorem scodeUnknown (c : Byte) : Statement (.scodeUnknown c) := rfl
theorem lenchk (cand : Candidate) : Statement (.lenchk cand) := rfl
theorem xorsum (cand : Candidate) : Statement (.xorsum cand) := rfl
theorem cscmp (xs : Byte) (f : RawFrame) : Statement (.cscmp xs f) := rfl
theorem syncmatch (f : RawFrame) : Statement (.syncmatch f) := rfl
theorem typematch (f : RawFrame) : Statement (.typematch f) := rfl
theorem validate (cand : Candidate) : Statement (.validate cand) := rfl
theorem extTs (f : RawFrame) : Statement (.extTs f) := rfl
theorem extSt (f : RawFrame) : Statement (.extSt f) := rfl
theorem extTemp (f : RawFrame) : Statement (.extTemp f) := rfl
theorem extBatt (f : RawFrame) : Statement (.extBatt f) := rfl
theorem extWx (f : RawFrame) : Statement (.extWx f) := rfl
theorem extWy (f : RawFrame) : Statement (.extWy f) := rfl
theorem extWz (f : RawFrame) : Statement (.extWz f) := rfl
theorem sxlate (c : Byte) : Statement (.sxlate c) := rfl
theorem decode (f : RawFrame) : Statement (.decode f) := rfl
theorem parse (cand : Candidate) : Statement (.parse cand) := rfl
theorem reset : Statement .reset := rfl
theorem idle : Statement .idle := rfl
theorem byte (d : Byte) : Statement (.byte d) := rfl
theorem last (d : Byte) : Statement (.last d) := rfl
theorem errNone : Statement .errNone := rfl
theorem errLen : Statement .errLen := rfl
theorem errCsum : Statement .errCsum := rfl
theorem errSync : Statement .errSync := rfl
theorem errFtype : Statement .errFtype := rfl
theorem statusSafe : Statement .statusSafe := rfl
theorem statusNominal : Statement .statusNominal := rfl
theorem statusScience : Statement .statusScience := rfl
theorem statusUnknown : Statement .statusUnknown := rfl

end Sys2Proof.Laws.EncodedFormat
end

