-- ==== Sys2Proof/Tests/Slice0.lean ====
section
/-! SUPPORT. The model's own tests. Expected values are the spec's: spec/95_test_vectors.md (S, V and T ids),
spec/opcode_table.json, and the examples in the rules. Then a witness for every statement that has hypotheses. -/

namespace Sys2Proof.Tests

open Sys2Proof.Machine

/-- S1, the source's frame `EX`. -/
def ex : Candidate :=
  [0xAE, 0x5F, 0x1B, 0x0F, 0x68, 0xE5, 0x4D, 0x60, 0x01, 0x00, 0x19, 0x1D, 0x4C, 0x0B, 0xB8, 0xFC, 0x18, 0x00, 0x00, 0x5B]

/-- V51: fifteen distinct payload bytes. -/
def v51 : Candidate :=
  [0xAE, 0x5F, 0x1B, 0x0F, 0x11, 0x22, 0x33, 0x44, 0x02, 0x55, 0x66, 0x77, 0x88, 0x99, 0xAA, 0xBB, 0xCC, 0xDD, 0xEE, 0x18]

/-- V8: the sync bytes swapped. -/
def v8 : Candidate := [0x5F, 0xAE] ++ ex.drop 2

/-- V21: packet type `1C`, checksum fixed. -/
def v21 : Candidate := [0xAE, 0x5F, 0x1C] ++ (ex.drop 3).take 16 ++ [0x5C]

/-- S2: checksum byte `FF`. -/
def s2 : Candidate := ex.take 19 ++ [0xFF]

def exF : RawFrame := ⟨ex, rfl⟩
def v51F : RawFrame := ⟨v51, rfl⟩
def v8F : RawFrame := ⟨v8, rfl⟩
def v21F : RawFrame := ⟨v21, rfl⟩
def s2F : RawFrame := ⟨s2, rfl⟩

/-- A frame buffer holding these bytes from an address on. -/
def cells : Nat → List Byte → Memory
  | _, [] => []
  | a, b :: bs => if b = 0x00 then cells (a + 1) bs else (a, b) :: cells (a + 1) bs

/-- A state that has received these bytes, with the accumulator the trace lists. -/
def received (bytes : List Byte) (n : Fin 22) (acc : Byte) : State :=
  { State.reset with fb := cells 0 bytes, cnt := n, acc := acc }

/-- A part of the next state. -/
def after {α : Type} (a : Answer) (f : State → α) : Option α :=
  match a with
  | .next t => some (f t)
  | .fault _ => none
  | .refused _ => none

/-- The result a Layer F operation returned. -/
def result (i : Instr) : Option (Option Ret) := after (exec i State.reset) State.ret

/-! Decoding: each constructor's word, written out from the spec's encoding. -/

theorem test_decode_frame_S1 :
    decode (.frame ex) = .ok (.ae1Health 1759858016 1 25 7500 3000 (BitVec.ofInt 16 (-1000)) 0 0x5B) := by decide
theorem test_decode_frame_V51 :
    decode (.frame v51) = .ok (.ae1Health 0x11223344 2 0x5566 0x7788 0x99AA 0xBBCC 0xDDEE 0x18) := by decide
theorem test_decode_frame_rejects : decode (.frame v8) = .error (.notHealthPacket v8 .syncWord) ∧
    decode (.frame (ex.take 19)) = .error (.notHealthPacket (ex.take 19) .inputTypeOrLength) := by decide
theorem test_decode_scode : decode (.scode 0b00000000) = .ok .scodeSafe ∧ decode (.scode 0b00000001) = .ok .scodeNominal ∧
    decode (.scode 0b00000010) = .ok .scodeScience ∧ decode (.scode 0b00000011) = .ok (.scodeUnknown 3) ∧
    decode (.scode 0b10000000) = .ok (.scodeUnknown 0x80) := by decide
theorem test_decode_status : decode (.status 0b00) = .ok .statusSafe ∧ decode (.status 0b01) = .ok .statusNominal ∧
    decode (.status 0b10) = .ok .statusScience ∧ decode (.status 0b11) = .ok .statusUnknown := by decide
theorem test_decode_err : decode (.err 0b000) = .ok .errNone ∧ decode (.err 0b001) = .ok .errLen ∧
    decode (.err 0b010) = .ok .errCsum ∧ decode (.err 0b011) = .ok .errSync ∧ decode (.err 0b100) = .ok .errFtype ∧
    decode (.err 0b101) = .error (.unusedErrCode 5) := by decide
theorem test_decode_port_T4 : decode (.port ⟨true, true, false, 0x60⟩) = .ok .reset ∧
    decode (.port ⟨false, false, true, 0xFF⟩) = .ok .idle ∧ decode (.port ⟨false, true, false, 0xAE⟩) = .ok (.byte 0xAE) ∧
    decode (.port ⟨false, true, true, 0x5B⟩) = .ok (.last 0x5B) := by decide
theorem test_decode_check_calls : decode (.call .lenchk ex) = .ok (.lenchk ex) ∧
    decode (.call .xorsum ex) = .ok (.xorsum ex) ∧ decode (.call .cscmp (0x5B :: ex)) = .ok (.cscmp 0x5B exF) ∧
    decode (.call .syncmatch ex) = .ok (.syncmatch exF) ∧ decode (.call .typematch ex) = .ok (.typematch exF) ∧
    decode (.call .validate ex) = .ok (.validate ex) := by decide
theorem test_decode_field_calls : decode (.call .extTs ex) = .ok (.extTs exF) ∧ decode (.call .extSt ex) = .ok (.extSt exF) ∧
    decode (.call .extTemp ex) = .ok (.extTemp exF) ∧ decode (.call .extBatt ex) = .ok (.extBatt exF) ∧
    decode (.call .extWx ex) = .ok (.extWx exF) ∧ decode (.call .extWy ex) = .ok (.extWy exF) ∧
    decode (.call .extWz ex) = .ok (.extWz exF) := by decide
theorem test_decode_top_calls : decode (.call .sxlate [1]) = .ok (.sxlate 1) ∧ decode (.call .decode ex) = .ok (.decode exF) ∧
    decode (.call .parse []) = .ok (.parse []) := by decide
theorem test_decode_call_refused : decode (.call .cscmp ex) = .error (.operandLength .cscmp 19) ∧
    decode (.call .extTs (ex.take 19)) = .error (.operandLength .extTs 19) ∧
    decode (.call .decode s2) = .error (.frameNotValidated .checksum) := by decide
theorem test_decode_table_words : decodeTableWord 8 0x01 = some .scodeNominal ∧ decodeTableWord 3 0x4 = some .errFtype ∧
    decodeTableWord 2 0x3 = some .statusUnknown ∧
    decodeTableWord 160 0xAE5F1B0F68E54D600100191D4C0BB8FC1800005B =
      some (.ae1Health 1759858016 1 25 7500 3000 0xFC18 0 0x5B) ∧
    decodeTableWord 160 0xAE5F1B0F00000000000000000000000000000000 = none := by decide

/-! WellFormed: an ill-formed term for each check, which the check refuses. -/

theorem test_wellFormed_refuses_checksum : wellFormed (.ae1Health 1759858016 1 25 7500 3000 0xFC18 0 0x5A) = false := by decide
theorem test_wellFormed_refuses_known_code : wellFormed (.scodeUnknown 2) = false := by decide
theorem test_wellFormed_refuses_unvalidated : wellFormed (.decode s2F) = false := by decide

/-! The operations of Layer F: the vectors of section 2. -/

theorem test_lenchk_V3 : result (.lenchk (ex.take 19)) = some (some (.check .len false (some .inputTypeOrLength))) := by decide
theorem test_lenchk_S1 : result (.lenchk ex) = some (some (.check .len true none)) := by decide
theorem test_xorsum_V51 : result (.xorsum v51) = some (some (.xsum 0x18)) := by decide
theorem test_xorsum_S4 : result (.xorsum (ex.take 4)) = some (some (.xsum 0xE5)) := by decide
theorem test_cscmp_S1 : result (.cscmp 0x5B exF) = some (some (.check .csum true none)) := by decide
theorem test_cscmp_S2 : result (.cscmp 0x5B s2F) = some (some (.check .csum false (some .checksum))) := by decide
theorem test_syncmatch_S1 : result (.syncmatch exF) = some (some (.check .sync true none)) := by decide
theorem test_syncmatch_V8 : result (.syncmatch v8F) = some (some (.check .sync false (some .syncWord))) := by decide
theorem test_typematch_S1 : result (.typematch exF) = some (some (.check .type true none)) := by decide
theorem test_typematch_V21 : result (.typematch v21F) = some (some (.check .type false (some .frameType))) := by decide
theorem test_validate_V21 : result (.validate v21) =
    some (some (.validated ⟨true, some true, some true, some false⟩ (.err .frameType))) := by decide
theorem test_validate_S2 : result (.validate s2) =
    some (some (.validated ⟨true, some false, some true, some true⟩ (.err .checksum))) := by decide
theorem test_extTs_V51 : result (.extTs v51F) = some (some (.field ⟨.four, 0x11223344#32, false⟩)) := by decide
theorem test_extSt_V51 : result (.extSt v51F) = some (some (.field ⟨.one, 0x02#8, false⟩)) := by decide
theorem test_extTemp_V51 : result (.extTemp v51F) = some (some (.field ⟨.two, 0x5566#16, true⟩)) := by decide
theorem test_extBatt_V51 : result (.extBatt v51F) = some (some (.field ⟨.two, 0x7788#16, false⟩)) := by decide
theorem test_extWx_V51 : result (.extWx v51F) = some (some (.field ⟨.two, 0x99AA#16, true⟩)) := by decide
theorem test_extWy_V51 : result (.extWy v51F) = some (some (.field ⟨.two, 0xBBCC#16, true⟩)) := by decide
theorem test_extWz_V51 : result (.extWz v51F) = some (some (.field ⟨.two, 0xDDEE#16, true⟩)) := by decide
theorem test_extWz_V51_value : (extract v51F (fieldRow .wz)).value = -8722 := by decide
theorem test_sxlate_V33 : result (.sxlate 4) = some (some (.variant .unknown)) := by decide
theorem test_sxlate_code_S1 : (sxlate 1).code = 0b01 := by decide
theorem test_scode_rows : result .scodeSafe = some (some (.variant .safe)) ∧ result .scodeNominal = some (some (.variant .nominal)) ∧
    result .scodeScience = some (some (.variant .science)) ∧ result (.scodeUnknown 0x81) = some (some (.variant .unknown)) := by decide
theorem test_decode_S1 : result (.decode exF) =
    some (some (.record ⟨0x68E54D60, .nominal, 0x0019, 0x1D4C, 0x0BB8, 0xFC18, 0x0000⟩)) := by decide
theorem test_decode_S2_refused : after (exec (.decode s2F) State.reset) State.ret = none := by decide
theorem test_parse_V51 : result (.parse v51) =
    some (some (.parsed (.ok ⟨0x11223344, .science, 0x5566, 0x7788, 0x99AA, 0xBBCC, 0xDDEE⟩)
      ⟨true, .errNone, 0x18, ⟨0x11223344, .science, 0x5566, 0x7788, 0x99AA, 0xBBCC, 0xDDEE⟩⟩)) := by decide
theorem test_parse_S4 : result (.parse (ex.take 4)) = some (some (.parsed (.err .inputTypeOrLength)
    ⟨false, .errLen, 0xE5, ⟨0, .unknown, 0, 0, 0, 0, 0⟩⟩)) := by decide
theorem test_ae1Health_S1 : result (.ae1Health 1759858016 1 25 7500 3000 0xFC18 0 0x5B) =
    some (some (.parsed (.ok ⟨0x68E54D60, .nominal, 0x0019, 0x1D4C, 0x0BB8, 0xFC18, 0x0000⟩)
      ⟨true, .errNone, 0x5B, ⟨0x68E54D60, .nominal, 0x0019, 0x1D4C, 0x0BB8, 0xFC18, 0x0000⟩⟩)) := by decide
theorem test_err_rows : result .errNone = some (some (.cause none)) ∧ result .errLen = some (some (.cause (some .inputTypeOrLength))) ∧
    result .errCsum = some (some (.cause (some .checksum))) ∧ result .errSync = some (some (.cause (some .syncWord))) ∧
    result .errFtype = some (some (.cause (some .frameType))) := by decide
theorem test_status_rows : result .statusSafe = some (some (.variant .safe)) ∧
    result .statusNominal = some (some (.variant .nominal)) ∧ result .statusScience = some (some (.variant .science)) ∧
    result .statusUnknown = some (some (.variant .unknown)) := by decide

/-! The four steps of Layer P: single lines of the port traces of section 3. -/

/-- T4 step 8: RESET wins over the byte presented with it. -/
theorem test_reset_T4 : after (step ((received (ex.take 7) 7 0x25).withPorts [⟨true, true, false, 0x60⟩]))
    (fun t => (t.cnt, t.acc, t.fb, t.status)) = some (0, 0x00, [], 3) := by decide
/-- T6 step 5: `in_last` without `in_valid`. -/
theorem test_idle_T6 : after (step ((received (ex.take 4) 4 0xE5).withPorts [⟨false, false, true, 0xFF⟩]))
    (fun t => (t.cnt, t.acc, t.done)) = some (4, 0xE5, false) := by decide
/-- T1 step 2. -/
theorem test_byte_T1 : after (exec (.byte 0x5F) (received [0xAE] 1 0xAE))
    (fun t => (t.cnt, t.acc, t.fb)) = some (2, 0xF1, [(0, 0xAE), (1, 0x5F)]) := by decide
/-- T5 step 21: a byte past the frame is counted, not stored, not folded. -/
theorem test_byte_T5 : after (exec (.byte 0x11) (received ex 20 0x5B))
    (fun t => (t.cnt, t.acc, t.fb)) = some (21, 0x5B, cells 0 ex) := by decide
/-- T1 step 20. -/
theorem test_last_T1 : after (exec (.last 0x5B) (received (ex.take 19) 19 0x5B)) (fun t => (t.done, t.out, t.status, t.sr)) =
    some (true, ⟨true, .errNone, 0x5B, ⟨0x68E54D60, .nominal, 0x0019, 0x1D4C, 0x0BB8, 0xFC18, 0x0000⟩⟩, 1, 0b11000) := by decide
/-- T7 step 21: stale bytes that would pass every other check do not make a one-byte candidate a frame. -/
theorem test_last_T7 : after (exec (.last 0xAE) { received ex 0 0x00 with ok := true, xsum := 0x5B })
    (fun t => (t.done, t.out, t.fb, t.sr)) =
      some (true, ⟨false, .errLen, 0xAE, ⟨0, .unknown, 0, 0, 0, 0, 0⟩⟩, cells 0 ex, 0b10001) := by decide

/-! The frame buffer and the step. -/

theorem test_memory_write_reset_value_removes_the_cell : Memory.write [(0, 0xAE), (1, 0x5F)] 0 0x00 = [(1, 0x5F)] := by decide
theorem test_step_nothing_presented_is_idle :
    after (step { State.reset with done := true }) (fun t => (t.done, t.inputs)) = some (false, []) := by decide
theorem test_withFetchWord_runs_it : after (step (State.reset.withFetchWord 8 0x02)) State.ret = some (some (.variant .science)) := by decide
theorem test_step_unused_err_code_faults :
    (match step { State.reset with inputs := [.err 0b101] } with | .fault .unusedErrCode => true | _ => false) = true := by decide

/-! Witnesses: for every statement with hypotheses, concrete values that meet them together. -/

theorem witness_DecodeOfEncodeIsTheOperation : WellFormed (.ae1Health 1759858016 1 25 7500 3000 0xFC18 0 0x5B) ∧
    WellFormed (.scodeUnknown 3) ∧ WellFormed (.scodeUnknown 255) ∧ WellFormed (.decode exF) := by decide
theorem witness_DecodedOperationIsWellFormed : decode (.scode 3) = .ok (.scodeUnknown 3) := by decide
theorem witness_EncodeOfDecodeIsTheWord :
    (Presented.frame ex).format ≠ .step ∧ ∃ i, decode (.frame ex) = .ok i :=
  ⟨by decide, _, test_decode_frame_S1⟩
theorem witness_HealthPacketIffMaskAndChecksum : ([] : Candidate).length ≠ 20 ∧ (ex.take 19).length ≠ 20 ∧
    (ex ++ [0x00]).length ≠ 20 := by decide
theorem witness_StepRunsThePresentedOperation :
    decode (fetched { State.reset with inputs := [.scode 2, .err 0] }) = .ok .scodeScience ∧ State.reset.inputs = [] := by decide
theorem witness_EveryPortSampleGivesANextState :
    (State.reset.withPorts [⟨false, true, true, 0x5B⟩]).inputs = .port ⟨false, true, true, 0x5B⟩ :: [] := by decide
theorem witness_UnrecognisedFrameIsRejected :
    ({ State.reset with inputs := [.frame s2] } : State).inputs = .frame s2 :: [] ∧ validate s2 = .err .checksum := by decide
theorem witness_StepStops_unusedErr : fetched { State.reset with inputs := [.err 5] } = .err 5 ∧
    fetched { State.reset with inputs := [.err 7] } = .err 7 ∧ 5 ≤ (5 : BitVec 3).toNat ∧ 5 ≤ (7 : BitVec 3).toNat := by decide
theorem witness_StepStops_operand : fetched { State.reset with inputs := [.call .cscmp ex] } = .call .cscmp ex ∧
    ¬ callFits .cscmp ex ∧ ¬ callFits .syncmatch (ex.take 19) ∧ ¬ callFits .sxlate [] := by
  simp [fetched, callFits, ex]
theorem witness_StepStops_unvalidated : ¬ callFits .decode s2 := by
  rintro ⟨f, hf⟩
  rw [show validate s2 = .err .checksum by decide] at hf
  cases hf
theorem witness_StepStops_next : (∀ c, fetched State.reset = .err c → c.toNat < 5) ∧
    ∀ op bytes, fetched State.reset = .call op bytes → callFits op bytes := by
  simp [fetched, State.reset, quietPort]
theorem witness_StepStops_next_err : ∀ c, fetched { State.reset with inputs := [.err 4] } = .err c → c.toNat < 5 := by
  decide
theorem witness_EveryWellFormedOperationCompletes : WellFormed (.decode exF) ∧ WellFormed (.scodeUnknown 3) ∧ WellFormed (.last 0x5B) := by
  decide
theorem witness_StatusCodeRowsTranslate : 3 ≤ (3 : Byte).toNat ∧ 3 ≤ (255 : Byte).toNat := by decide
theorem witness_SxlateTranslatesEveryCode : (0 : Byte).toNat = 0 ∧ (1 : Byte).toNat = 1 ∧ (2 : Byte).toNat = 2 ∧
    3 ≤ (3 : Byte).toNat ∧ 3 ≤ (255 : Byte).toNat := by decide
theorem witness_ErrCodesTellTheirCause : 5 ≤ (5 : BitVec 3).toNat ∧ 5 ≤ (7 : BitVec 3).toNat := by decide
theorem witness_LenchkRaisesUnlessTwentyBytes : ex.length = 20 ∧ (ex.take 19).length ≠ 20 ∧ (ex ++ [0x00]).length ≠ 20 := by decide
/-- V19: bytes 9 and 10 exchanged. -/
theorem witness_XorsumIgnoresByteOrder : (ex.take 19).Perm ((ex.take 9 ++ [0x19, 0x00] ++ ex.drop 11).take 19) := by decide
theorem witness_CscmpComparesByteNineteen : 0x5B = exF.byte 19 ∧ 0x5B ≠ s2F.byte 19 := by decide
theorem witness_ExactlyOneChecksumByte : exF.bytes = ex.take 19 ++ [0x5B] := by decide
theorem witness_SyncmatchComparesTheFirstTwoBytes : (exF.byte 0 = 0xAE ∧ exF.byte 1 = 0x5F) ∧
    ¬ (v8F.byte 0 = 0xAE ∧ v8F.byte 1 = 0x5F) := by decide
theorem witness_TypematchComparesTypeAndLength : (exF.byte 2 = 0x1B ∧ exF.byte 3 = 0x0F) ∧
    ¬ (v21F.byte 2 = 0x1B ∧ v21F.byte 3 = 0x0F) := by decide
theorem witness_ValidateAnswersTheFirstFailingCheck : (ex.take 19).length ≠ 20 ∧ exF.bytes = ex ∧
    xorsum s2 ≠ s2F.byte 19 ∧ (xorsum v8 = v8F.byte 19 ∧ ¬ (v8F.byte 0 = 0xAE ∧ v8F.byte 1 = 0x5F)) ∧
    (xorsum v21 = v21F.byte 19 ∧ (v21F.byte 0 = 0xAE ∧ v21F.byte 1 = 0x5F) ∧ ¬ (v21F.byte 2 = 0x1B ∧ v21F.byte 3 = 0x0F)) ∧
    (xorsum ex = exF.byte 19 ∧ (exF.byte 0 = 0xAE ∧ exF.byte 1 = 0x5F) ∧ exF.byte 2 = 0x1B ∧ exF.byte 3 = 0x0F) := by decide
theorem witness_OneFlippedBitIsAChecksumError : validate exF.bytes = .ok exF := by decide
theorem witness_MemReadIsBigEndian : 19 + Width.one.bytes ≤ 20 ∧ 18 + Width.two.bytes ≤ 20 ∧ 16 + Width.four.bytes ≤ 20 := by decide
theorem witness_SignedExtractionsReadTwosComplement :
    (Instr.extTemp exF = .extTemp exF ∧ (9 : Fin 20) = 9 ∧ (10 : Fin 20) = 10) ∧
    (Instr.extWz exF = .extWz exF ∧ (17 : Fin 20) = 17 ∧ (18 : Fin 20) = 18) := by decide
theorem witness_DecodeReturnsTheRecord : validate v51F.bytes = .ok v51F := by decide
theorem witness_DecodeRefusesAFrameNotValidated : validate s2F.bytes = .err .checksum := by decide
theorem witness_ParseIsValidateThenDecode : validate ex = .ok exF ∧ validate [] = .err .inputTypeOrLength := by decide
theorem witness_PayloadRoundTrip : ((ex.drop 4).take 15).length = 15 := by decide
theorem witness_HealthPacketParsesToItsOperands : WellFormed (.ae1Health 0x11223344 2 0x5566 0x7788 0x99AA 0xBBCC 0xDDEE 0x18) := by decide
theorem witness_HealthPacketWithAnotherChecksumIsRejected :
    ¬ WellFormed (.ae1Health 1759858016 1 25 7500 3000 0xFC18 0 0xFF) := by decide
/-- The clauses of LAST: accepted, and each of the four rejections. -/
theorem witness_LastJudgesTheFrame :
    after (exec (.last 0x5B) (received (ex.take 19) 19 0x5B)) State.err = some .errNone ∧
    after (exec (.last 0x00) (received (ex.take 18) 18 0x5B)) State.err = some .errLen ∧
    after (exec (.last 0xFF) (received (ex.take 19) 19 0x5B)) State.err = some .errCsum ∧
    after (exec (.last 0x5B) (received (v8.take 19) 19 0x5B)) State.err = some .errSync ∧
    after (exec (.last 0x5C) (received (v21.take 19) 19 0x5C)) State.err = some .errFtype := by decide
theorem witness_LengthRejectionIgnoresTheBuffer : (received ex 0 0).cnt ≠ 19 ∧ (received ex 18 0x5B).cnt ≠ 19 ∧
    (received ex 20 0x5B).cnt ≠ 19 ∧ (received ex 21 0x5B).cnt ≠ 19 := by decide
theorem witness_OnlyTheFourStepsTouchRegisters : (Instr.parse ex).format ≠ .step ∧
    ∃ t, exec (.parse ex) State.reset = .next t := ⟨by decide, _, rfl⟩
theorem witness_OutputsAreWrittenByLastAndResetAlone : Instr.byte 0xAE ≠ .reset ∧ (∀ d, Instr.byte 0xAE ≠ .last d) ∧
    ∃ t, exec (.byte 0xAE) State.reset = .next t := ⟨by decide, by simp, _, rfl⟩
theorem witness_DoneIsOneExactlyAfterLast : (Instr.last 0x5B).format = .step ∧ Instr.idle.format = .step := by decide
/-- A state in the middle of a frame meets the invariants, and steps. -/
theorem witness_InvariantIsKeptByEveryStep : (received (ex.take 19) 19 0x5B).Inv ∧
    ∃ t, step ((received (ex.take 19) 19 0x5B).withPorts [⟨false, true, true, 0x5B⟩]) = .next t :=
  ⟨⟨by decide, by decide, by decide, by decide, by decide, by decide⟩, _, rfl⟩
theorem witness_StatusTripleIsLegal : (received (ex.take 19) 19 0x5B).Inv := witness_InvariantIsKeptByEveryStep.1
theorem witness_PartialFrameIsTracked : (⟨true, true, true, 0x60⟩ : PortIn).rst = true ∧ 19 < 20 ∧
    (openCandidate [] [⟨false, true, false, 0xAE⟩, ⟨false, true, false, 0x5F⟩])[1]? = some 0x5F := by decide
theorem witness_PortResultIsParseOut : (⟨true, false, false, 0⟩ : PortIn).rst = true ∧
    (⟨false, true, true, 0x5B⟩ : PortIn).rst = false ∧ (⟨false, true, true, 0x5B⟩ : PortIn).inValid = true ∧
    (⟨false, true, true, 0x5B⟩ : PortIn).inLast = true := by decide
theorem witness_ObservationIsParseOutOfEachCandidate :
    completed [] (presenting (ex.take 4) ++ presenting [0xAE]) = [ex.take 4, [0xAE]] := by decide
theorem witness_StaleBytesNeverShow : (received (ex.take 2) 2 0xF1).cnt = (received ex 2 0xF1).cnt ∧
    (received (ex.take 2) 2 0xF1).acc = (received ex 2 0xF1).acc ∧
    ∀ a < 2, Memory.read (received (ex.take 2) 2 0xF1).fb a = Memory.read (received ex 2 0xF1).fb a := by decide
theorem witness_ChecksumGenerationThenAcceptance : (⟨true, false, false, 0⟩ : PortIn).rst = true ∧
    ((ex.drop 4).take 15).length = 15 := by decide

end Sys2Proof.Tests
end

/-! Proofs of the scope obligations (spec/00_scope.md). -/
namespace Sys2Proof

/-- Settles O4, bit by bit: bit `b` of byte `i` is bit `152 - 8i + b` of the frame word (R10). -/
theorem frameWordSliceIsTheByte : Obligations.FrameWordSliceIsTheByte := by
  intro f i
  exact extractByte_eq _ _ _ fun b hb => frameWord_getLsbD f i b hb

end Sys2Proof

/-! Proofs of the state obligations (spec/10_state.md). First what an operation and a step can answer, said once; then the
invariants of R37 and the candidate being received; then the obligations. -/
namespace Sys2Proof.Machine

/-! LAST's result as one function of the length, the checksum and the frame (R145). -/

/-- What LAST presents for a candidate of `n` bytes with this generated checksum, when the buffer holds this frame. -/
def lastOut (n : Nat) (xs : Byte) (f : RawFrame) : ParseOut :=
  match firstFailing (n == Config.frameLen) (csumOk xs f) (syncOk f) (typeOk f) with
  | some e => { ok := false, err := e.errCode, xsum := xs, record := nullRecord }
  | none => { ok := true, err := .errNone, xsum := xs, record := recordOf f }

/-- LAST stores its byte and presents `lastOut`. -/
theorem execLast_eq (d : Byte) (s : State) :
    execLast d s = .next ((s.store d).present
      (lastOut (bump s.cnt).val (foldedByte s d) (frameOf (storedByte s d)))) := by
  unfold execLast lastOut
  cases h : firstFailing ((bump s.cnt).val == Config.frameLen) (csumOk (foldedByte s d) (frameOf (storedByte s d)))
      (syncOk (frameOf (storedByte s d))) (typeOk (frameOf (storedByte s d))) <;> simp only [h] <;> rfl

/-- The length check comes first, so off 20 bytes the frame is not looked at (R105, R161). -/
theorem lastOut_of_length_ne (n : Nat) (xs : Byte) (f : RawFrame) (h : n ≠ 20) :
    lastOut n xs f = { ok := false, err := .errLen, xsum := xs, record := nullRecord } := by
  have hn : (n == Config.frameLen) = false := by simpa using h
  simp [lastOut, firstFailing, hn, ParseError.errCode]

/-! The frame a step's byte leaves in the buffer. -/

/-- Two buffers that read the same at every offset hold the same frame. -/
theorem frameOf_congr (m m' : Memory) (h : ∀ a < 20, Memory.read m a = Memory.read m' a) : frameOf m = frameOf m' := by
  simp only [frameOf, RawFrame.mk.injEq]
  exact List.map_congr_left fun a ha => h a (List.mem_range.mp ha)

/-- The first bytes of the frame a buffer holds are those read at the first addresses. -/
theorem take_frameOf (m : Memory) (n : Nat) (h : n ≤ 20) :
    (frameOf m).bytes.take n = (List.range n).map (Memory.read m) := by
  rw [frameOf_bytes, ← List.map_take, List.take_range, Nat.min_eq_left h]

/-- A byte accepted below offset 20 extends the bytes received by itself (R63). -/
theorem take_frameOf_storedByte (s : State) (d : Byte) (h : s.cnt.val < 20) :
    (frameOf (storedByte s d)).bytes.take (s.cnt.val + 1) = (frameOf s.fb).bytes.take s.cnt.val ++ [d] := by
  have hkeep : ∀ a ∈ List.range s.cnt.val, Memory.read (storedByte s d) a = Memory.read s.fb a := fun a ha => by
    have ha := List.mem_range.mp ha
    rw [read_storedByte, if_neg (by omega)]
  have hnew : Memory.read (storedByte s d) s.cnt.val = d := by rw [read_storedByte, if_pos ⟨rfl, h⟩]
  rw [take_frameOf _ _ h, take_frameOf _ _ h.le, List.range_succ, List.map_append, List.map_congr_left hkeep,
    List.map_singleton, hnew]

/-- The checksum of the bytes received, with one more accepted (R27). -/
theorem xorsum_take_storedByte (s : State) (d : Byte) :
    xorsum ((frameOf (storedByte s d)).bytes.take (bump s.cnt).val) =
      if s.cnt.val < 19 then xorsum ((frameOf s.fb).bytes.take s.cnt.val) ^^^ d
      else xorsum ((frameOf s.fb).bytes.take s.cnt.val) := by
  by_cases h : s.cnt.val < 20
  · rw [bump_val, Nat.min_eq_left (by omega), take_frameOf_storedByte s d h, xorsum_append]
    have hlen : ((frameOf s.fb).bytes.take s.cnt.val).length = s.cnt.val := by simp; omega
    rw [hlen]
  · have hfb : storedByte s d = s.fb := if_neg h
    rw [hfb, if_neg (by omega), xorsum_take _ _ (by rw [bump_val]; omega), xorsum_take _ _ (by omega)]

/-! What an operation and a step can answer. -/

/-- Everything an operation can do when it answers a next state: one of the four port steps, or a result handed to the
caller (R39). -/
theorem exec_next_cases (i : Instr) (s t : State) (h : exec i s = .next t) :
    (i = .reset ∧ t = s.resetBlock) ∨
    (i = .idle ∧ t = { s with done := false }) ∨
    (∃ d, i = .byte d ∧ t = { s with fb := storedByte s d, acc := foldedByte s d, cnt := bump s.cnt, done := false }) ∨
    (∃ d o, i = .last d ∧ t = (s.store d).present o ∧
      ((o.ok = true ∧ o.err = .errNone) ∨ (o.ok = false ∧ o.err ≠ .errNone ∧ o.record = nullRecord))) ∨
    ∃ r, t = s.returns r := by
  by_cases hi : i.format = .step
  · cases i with
    | reset => injection h with h; exact .inl ⟨rfl, h.symm⟩
    | idle => injection h with h; exact .inr (.inl ⟨rfl, h.symm⟩)
    | byte d => injection h with h; exact .inr (.inr (.inl ⟨d, rfl, h.symm⟩))
    | last d =>
      obtain ⟨o, hexec, -, ho⟩ := execLast_presents d s
      have ht : t = (s.store d).present o := by
        have := hexec.symm.trans h
        injection this with this
        exact this.symm
      refine .inr (.inr (.inr (.inl ⟨d, o, rfl, ht, ?_⟩)))
      exact ho.imp (fun ⟨hok, herr, _⟩ => ⟨hok, herr⟩) id
    | _ => simp [Instr.format] at hi
  · exact .inr (.inr (.inr (.inr (exec_layerF i s t hi h))))

/-- A step that answers a next state runs an operation, or hands the rejection of an unrecognised candidate to the caller. -/
theorem step_next_cases (s t : State) (h : step s = .next t) :
    (∃ i, exec i s.consume = .next t) ∨ ∃ r, t = s.consume.returns r := by
  unfold step at h
  split at h
  · next i _ => exact .inl ⟨i, h⟩
  · next e _ =>
    cases e with
    | notHealthPacket cand cause => injection h with h; exact .inr ⟨_, h.symm⟩
    | _ => cases h

/-- A step that is presented a port sample runs the step the sample selects, and the sample is used up (R141). -/
theorem step_port (s : State) (p : PortIn) (rest : List Presented) (h : s.inputs = .port p :: rest) :
    step s = exec (decodePort p) { s with inputs := rest } := by
  simp [step, fetched, decode, State.consume, h]

/-- A run of one more step is that step and the run from there. -/
theorem run_succ (n : Nat) (s t : State) (h : step s = .next t) :
    Host.Core.run Sys2Proof.core (n + 1) s = Host.Core.run Sys2Proof.core n t := by
  simp only [Host.Core.run, Sys2Proof.core, h]

/-! The invariants of R37, operation by operation. -/

theorem State.Inv.consume {s : State} (h : s.Inv) : s.consume.Inv := { h with }

theorem State.Inv.returns {s : State} (h : s.Inv) (r : Ret) : (s.returns r).Inv := { h with }

/-- RESET establishes the invariants from every state. -/
theorem State.resetBlock_inv (s : State) : s.resetBlock.Inv where
  fbCanonical := Memory.wf_reset
  accFolds := by simp
  okMeansNoError := by simp
  notOkMeansNull _ := rfl
  doneMeansOneOutcome := by simp
  noFrameYet _ _ := ⟨rfl, rfl⟩

theorem State.Inv.idle {s : State} (h : s.Inv) : State.Inv { s with done := false } where
  fbCanonical := h.fbCanonical
  accFolds := h.accFolds
  okMeansNoError := h.okMeansNoError
  notOkMeansNull := h.notOkMeansNull
  doneMeansOneOutcome := by simp
  noFrameYet hok herr := ⟨rfl, (h.noFrameYet hok herr).2⟩

/-- BYTE folds into `ACC` the byte it appends to the partial frame (R37.2). -/
theorem State.Inv.byte {s : State} (h : s.Inv) (d : Byte) :
    State.Inv { s with fb := storedByte s d, acc := foldedByte s d, cnt := bump s.cnt, done := false } where
  fbCanonical := storedByte_wf s d h.fbCanonical
  accFolds := by
    show foldedByte s d = xorsum ((frameOf (storedByte s d)).bytes.take (bump s.cnt).val)
    rw [xorsum_take_storedByte, ← h.accFolds]
    rfl
  okMeansNoError := h.okMeansNoError
  notOkMeansNull := h.notOkMeansNull
  doneMeansOneOutcome := by simp
  noFrameYet hok herr := ⟨rfl, (h.noFrameYet hok herr).2⟩

/-- A result that is either accepted without error or rejected with one and the null record meets the invariants on the
output registers; the partial frame is empty again. -/
theorem State.Inv.present {s : State} (h : Memory.wf s.fb) (o : ParseOut)
    (ho : (o.ok = true ∧ o.err = .errNone) ∨ (o.ok = false ∧ o.err ≠ .errNone ∧ o.record = nullRecord)) :
    (s.present o).Inv := by
  have hrecord : (s.present o).record = o.record := congrArg ParseOut.record (State.present_out s o)
  rcases ho with ⟨hok, herr⟩ | ⟨hno, herr, hnull⟩
  · exact
      { fbCanonical := h
        accFolds := by simp
        okMeansNoError := fun _ => herr
        notOkMeansNull := by simp [hok]
        doneMeansOneOutcome := by simp [hok, herr]
        noFrameYet := by simp [hok] }
  · exact
      { fbCanonical := h
        accFolds := by simp
        okMeansNoError := by simp [hno]
        notOkMeansNull := fun _ => hrecord.trans hnull
        doneMeansOneOutcome := by simp [hno, herr]
        noFrameYet := fun _ he => absurd he herr }

/-- Every operation that answers a next state keeps the invariants. -/
theorem State.Inv.exec {i : Instr} {s t : State} (hs : s.Inv) (h : Machine.exec i s = .next t) : t.Inv := by
  obtain ⟨-, rfl⟩ | ⟨-, rfl⟩ | ⟨d, -, rfl⟩ | ⟨d, o, -, rfl, ho⟩ | ⟨r, rfl⟩ := exec_next_cases i s t h
  · exact s.resetBlock_inv
  · exact hs.idle
  · exact hs.byte d
  · exact .present (storedByte_wf s d hs.fbCanonical) o ho
  · exact hs.returns r

/-- Settles O46: a step uses up its input and runs an operation, and each operation keeps the invariants. -/
theorem invariantIsKeptByEveryStep : Obligations.InvariantIsKeptByEveryStep := by
  intro s t hs h
  obtain ⟨i, hi⟩ | ⟨r, rfl⟩ := step_next_cases s t h
  · exact hs.consume.exec hi
  · exact hs.consume.returns r

/-! The candidate being received (R37.1 to R37.3, R147). -/

/-- `CNT`, `ACC` and `FB` are those of a partial candidate: its length saturated at 21, the XOR of its first nineteen bytes,
its first twenty bytes. -/
structure State.Tracks (s : State) (cand : Candidate) : Prop where
  cntCounts : s.cnt.val = min cand.length 21
  accFolds : s.acc = xorsum cand
  fbHolds : ∀ (a : Nat) (b : Byte), a < 20 → cand[a]? = some b → Memory.read s.fb a = b

/-- In-frame registers ready for byte 0 track the empty candidate, whatever the buffer holds. -/
theorem State.Tracks.empty {s : State} (hcnt : s.cnt = 0) (hacc : s.acc = 0x00) : s.Tracks [] where
  cntCounts := by simp [hcnt]
  accFolds := by simp [hacc]
  fbHolds a b _ h := by simp at h

/-- A byte accepted is the candidate's next byte. -/
theorem State.Tracks.byte {s : State} {cand : Candidate} (h : s.Tracks cand) (d : Byte) :
    State.Tracks { s with fb := storedByte s d, acc := foldedByte s d, cnt := bump s.cnt, done := false } (cand ++ [d]) where
  cntCounts := by
    have hcnt := h.cntCounts
    simp only [bump_val, List.length_append, List.length_singleton]
    omega
  accFolds := by
    have hcnt := h.cntCounts
    have hiff : s.cnt.val < 19 ↔ cand.length < 19 := by omega
    simp only [foldedByte, Config.csumSpan, xorsum_append, h.accFolds, hiff]
  fbHolds a b ha hb := by
    have hcnt := h.cntCounts
    rw [read_storedByte]
    by_cases hac : a < cand.length
    · rw [List.getElem?_append_left hac] at hb
      rw [if_neg (by omega)]
      exact h.fbHolds a b ha hb
    · have hlt := (List.getElem?_eq_some_iff.mp hb).1
      simp only [List.length_append, List.length_singleton] at hlt
      obtain rfl : a = cand.length := by omega
      rw [if_pos (by omega)]
      simpa using hb

/-- The registers that track a candidate do not depend on `DONE`. -/
theorem State.Tracks.idle {s : State} {cand : Candidate} (h : s.Tracks cand) : State.Tracks { s with done := false } cand :=
  { h with }

/-- The step a port sample selects leaves the in-frame registers as R147 says, and takes no other input. -/
theorem exec_port_tracks (p : PortIn) (s : State) (cand : Candidate) (h : p.rst = true ∨ s.Tracks cand) :
    ∃ t, exec (decodePort p) s = .next t ∧ t.inputs = s.inputs ∧ t.Tracks (receive cand p) := by
  obtain ⟨rst, inValid, inLast, d⟩ := p
  match rst, inValid, inLast with
  | true, _, _ => exact ⟨_, rfl, rfl, .empty rfl rfl⟩
  | false, false, _ => exact ⟨_, rfl, rfl, (h.resolve_left (by simp)).idle⟩
  | false, true, false => exact ⟨_, rfl, rfl, (h.resolve_left (by simp)).byte d⟩
  | false, true, true => exact ⟨_, execLast_eq d s, rfl, .empty rfl rfl⟩

/-- A step on a port sample takes the candidate being received to the next; a RESET sample does so from every state. -/
theorem step_port_tracks (s : State) (cand : Candidate) (p : PortIn) (rest : List Presented)
    (hin : s.inputs = .port p :: rest) (h : p.rst = true ∨ s.Tracks cand) :
    ∃ t, step s = .next t ∧ t.inputs = rest ∧ t.Tracks (receive cand p) := by
  rw [step_port s p rest hin]
  exact exec_port_tracks p _ cand (h.imp_right fun hs => { hs with })

/-- A run over port samples takes the candidate being received to the one R147 gives, and uses up exactly those samples. -/
theorem run_ports_tracks (ps : List PortIn) (rest : List Presented) (s : State) (cand : Candidate)
    (hin : s.inputs = ps.map .port ++ rest) (h : s.Tracks cand) :
    ∃ t, Host.Core.run Sys2Proof.core ps.length s = .next t ∧ t.inputs = rest ∧ t.Tracks (openCandidate cand ps) := by
  induction ps generalizing s cand with
  | nil => exact ⟨s, rfl, hin, h⟩
  | cons p ps ih =>
    obtain ⟨u, hstep, hu, htrack⟩ := step_port_tracks s cand p _ hin (.inr h)
    obtain ⟨t, hrun, ht⟩ := ih u (receive cand p) hu htrack
    exact ⟨t, (run_succ _ s u hstep).trans hrun, ht⟩

/-- Settles O48: RESET tracks the empty candidate, and every port sample keeps the tracking. -/
theorem partialFrameIsTracked : Obligations.PartialFrameIsTracked := by
  intro s r ps hr
  obtain ⟨u, hstep, hu, htrack⟩ := step_port_tracks (s.withPorts (r :: ps)) [] r (ps.map .port) rfl (.inl hr)
  have hreceive : receive [] r = [] := by simp [receive, hr]
  rw [hreceive] at htrack
  obtain ⟨t, hrun, -, ht⟩ := run_ports_tracks ps [] u [] (by simpa using hu) htrack
  exact ⟨t, (run_succ _ _ u hstep).trans hrun, ht.cntCounts, ht.accFolds, ht.fbHolds⟩

/-! The status triple (R35). -/

/-- The triples R35 lists are those where `OK` means no error, and no outcome at all means that `DONE` is 0. -/
theorem legalSr_iff (d o : Bool) (e : ErrCode) :
    legalSr (BitVec.ofBool d ++ BitVec.ofBool o ++ e.code : BitVec (1 + 1 + 3)) ↔
      (o = true → e = .errNone) ∧ (o = false → e = .errNone → d = false) := by
  cases e <;> revert d o <;> decide

/-- Settles O47: the two invariants on `OK`, `ERR` and `DONE` are what `legalSr_iff` asks for. -/
theorem statusTripleIsLegal : Obligations.StatusTripleIsLegal := by
  intro s h
  exact (legalSr_iff s.done s.ok s.err).mpr ⟨h.okMeansNoError, fun hok herr => (h.noFrameYet hok herr).1⟩

/-! Stale bytes (R36, R59). -/

/-- With 19 bytes received, LAST's own byte completes the frame: nothing of the buffer at offset 19 is left in it. -/
theorem frameOf_storedByte_congr (d : Byte) (s₁ s₂ : State) (h₁ : s₁.cnt.val = 19) (h₂ : s₂.cnt.val = 19)
    (hfb : ∀ a < 19, Memory.read s₁.fb a = Memory.read s₂.fb a) :
    frameOf (storedByte s₁ d) = frameOf (storedByte s₂ d) := by
  refine frameOf_congr _ _ fun a ha => ?_
  rw [read_storedByte, read_storedByte, h₁, h₂]
  by_cases h : a = 19
  · simp [h]
  · simpa [h] using hfb a (by omega)

/-- Settles O51: at 19 received bytes both frames are the same, and at any other count LAST looks at no frame. -/
theorem staleBytesNeverShow : Obligations.StaleBytesNeverShow := by
  intro d s₁ s₂ hcnt hacc hfb
  refine ⟨_, _, execLast_eq d s₁, execLast_eq d s₂, ?_⟩
  have hxs : foldedByte s₁ d = foldedByte s₂ d := by simp only [foldedByte, hcnt, hacc]
  rw [State.present_out, State.present_out, hcnt, hxs]
  by_cases h : s₂.cnt.val = 19
  · rw [frameOf_storedByte_congr d s₁ s₂ (hcnt ▸ h) h (by rwa [hcnt, h] at hfb)]
  · have hn : (bump s₂.cnt).val ≠ 20 := by rw [bump_val]; omega
    rw [lastOut_of_length_ne _ _ _ hn, lastOut_of_length_ne _ _ _ hn]

/-! Reset values, and which operations write what (R28, R38, R39). -/

/-- Settles O36: the empty buffer reads `0x00` everywhere, and every register is written out in `State.reset`. -/
theorem resetStateHoldsTheResetValues : Obligations.ResetStateHoldsTheResetValues :=
  ⟨Memory.read_nil, rfl, rfl, rfl, rfl, rfl, rfl, rfl, rfl, rfl, rfl, rfl, rfl, rfl⟩

/-- Settles O42: such an operation hands a result to its caller, and does no more. -/
theorem onlyTheFourStepsTouchRegisters : Obligations.OnlyTheFourStepsTouchRegisters := by
  intro i s t hi h
  obtain ⟨r, rfl⟩ := exec_layerF i s t hi h
  exact ⟨rfl, rfl⟩

/-- Settles O43: of what an operation can do, only RESET and LAST reach an output register other than `DONE`. -/
theorem outputsAreWrittenByLastAndResetAlone : Obligations.OutputsAreWrittenByLastAndResetAlone := by
  intro i s t hreset hlast h
  obtain ⟨hi, -⟩ | ⟨-, rfl⟩ | ⟨d, -, rfl⟩ | ⟨d, o, hi, -⟩ | ⟨r, rfl⟩ := exec_next_cases i s t h
  · exact absurd hi hreset
  · simp only [and_self]
  · simp only [and_self]
  · exact absurd hi (hlast d)
  · simp

/-- Settles O44: RESET, IDLE and BYTE clear `DONE`, and LAST presents a result. -/
theorem doneIsOneExactlyAfterLast : Obligations.DoneIsOneExactlyAfterLast := by
  intro i s hi
  cases i with
  | reset => exact ⟨_, rfl, by simp⟩
  | idle => exact ⟨_, rfl, by simp⟩
  | byte d => exact ⟨_, rfl, by simp⟩
  | last d => exact ⟨_, execLast_eq d s, by simp⟩
  | _ => simp [Instr.format] at hi

/-- Settles O45: the reset state is what RESET makes of itself. -/
theorem invariantHoldsAtReset : Obligations.InvariantHoldsAtReset := State.resetBlock_inv State.reset

end Sys2Proof.Machine

/-! Proofs of the memory obligations (spec/20_memory.md). -/
namespace Sys2Proof

/-- A byte appended below a word is one more base-256 digit of its value (R52). -/
theorem toNat_append_byte {n : Nat} (x : BitVec n) (b : Byte) : (x ++ b).toNat = x.toNat * 256 + b.toNat := by
  rw [BitVec.toNat_append, ← Nat.shiftLeft_add_eq_or_of_lt b.isLt, Nat.shiftLeft_eq]

theorem toNat_join32 (a b c d : Byte) : (a ++ b ++ c ++ d : BitVec (8 + 8 + 8 + 8)).toNat =
    ((a.toNat * 256 + b.toNat) * 256 + c.toNat) * 256 + d.toNat := by
  simp only [toNat_append_byte]

theorem RawFrame.getElem?_bytes (f : RawFrame) (i : Nat) (h : i < 20) : f.bytes[i]? = some (f.byte ⟨i, h⟩) :=
  List.getElem?_eq_getElem (by rwa [f.len])

/-- Settles O27: at each width `MemRead` appends the frame's bytes in rising offset order, and each byte appended is the
next base-256 digit. -/
theorem memReadIsBigEndian : Obligations.MemReadIsBigEndian := by
  intro f w off h
  cases w with
  | one =>
    have h0 : off < 20 := h
    have hread : (memRead f .one off h).toNat = (f.byte ⟨off, h0⟩).toNat := rfl
    rw [hread]
    simp [Width.bytes, f.getElem?_bytes off h0]
  | two =>
    have h1 : off + 1 < 20 := h
    have hread : (memRead f .two off h).toNat = _ := toNat_append_byte (f.byte ⟨off, by omega⟩) (f.byte ⟨off + 1, h1⟩)
    rw [hread]
    simp [Width.bytes, List.range_succ, f.getElem?_bytes off (by omega), f.getElem?_bytes (off + 1) h1]
  | four =>
    have h3 : off + 3 < 20 := h
    have hread : (memRead f .four off h).toNat = _ := toNat_join32 (f.byte ⟨off, by omega⟩)
      (f.byte ⟨off + 1, by omega⟩) (f.byte ⟨off + 2, by omega⟩) (f.byte ⟨off + 3, h3⟩)
    rw [hread]
    simp [Width.bytes, List.range_succ, f.getElem?_bytes off (by omega), f.getElem?_bytes (off + 1) (by omega),
      f.getElem?_bytes (off + 2) (by omega), f.getElem?_bytes (off + 3) h3, Nat.add_mul, Nat.mul_assoc, Nat.add_assoc]

end Sys2Proof

/-! Proofs of the encoding obligations (spec/30_encoding.md). First the bytes of a health packet and what VALIDATE says of
them; then the decoder, one lemma per format; then what a step does with what it is presented; then the obligations. -/
namespace Sys2Proof.Machine

/-! The health packet as a frame (R71). -/

section HealthPacket
variable (t : BitVec 32) (c : Byte) (temp batt wx wy wz : BitVec 16) (k : Byte)

/-- The health packet with these operands, as the 20-byte frame it is. -/
def healthFrame : RawFrame := ⟨healthBytes t c temp batt wx wy wz k, healthBytes_length t c temp batt wx wy wz k⟩

/-- The row AE1_HEALTH a frame's bytes spell, read off by the extractor (R73). -/
def healthInstr (f : RawFrame) : Instr :=
  .ae1Health (extTs f) (extSt f) (extTemp f) (extBatt f) (extWx f) (extWy f) (extWz f) (f.byte 19)

theorem wellFormed_ae1Health_iff :
    WellFormed (.ae1Health t c temp batt wx wy wz k) ↔ k = xorsum (healthPrefix t c temp batt wx wy wz) :=
  beq_iff_eq

/-- The checksum byte is at offset 19, so the generated checksum is that of the bytes before it (R101). -/
theorem xorsum_healthBytes :
    xorsum (healthBytes t c temp batt wx wy wz k) = xorsum (healthPrefix t c temp batt wx wy wz) := by
  rw [healthBytes, xorsum_append, if_neg (by simp [healthPrefix, bytes16, bytes32])]

/-- The extractor reads each operand back from the packet's bytes (R73). -/
theorem healthInstr_healthFrame :
    healthInstr (healthFrame t c temp batt wx wy wz k) = .ae1Health t c temp batt wx wy wz k := by
  have hts : extTs (healthFrame t c temp batt wx wy wz k) = t := append_bytes32 t
  have htemp : extTemp (healthFrame t c temp batt wx wy wz k) = temp := append_bytes16 temp
  have hbatt : extBatt (healthFrame t c temp batt wx wy wz k) = batt := append_bytes16 batt
  have hwx : extWx (healthFrame t c temp batt wx wy wz k) = wx := append_bytes16 wx
  have hwy : extWy (healthFrame t c temp batt wx wy wz k) = wy := append_bytes16 wy
  have hwz : extWz (healthFrame t c temp batt wx wy wz k) = wz := append_bytes16 wz
  rw [healthInstr, hts, htemp, hbatt, hwx, hwy, hwz]
  rfl

/-- DECODE's record of the packet holds its operands, the status code translated (R128). -/
theorem recordOf_healthFrame : recordOf (healthFrame t c temp batt wx wy wz k) =
    { timestamp := t, status := sxlate c, temperatureC := temp, batteryMv := batt, wheelX := wx, wheelY := wy,
      wheelZ := wz } := by
  have h := healthInstr_healthFrame t c temp batt wx wy wz k
  simp only [healthInstr, Instr.ae1Health.injEq] at h
  obtain ⟨hts, hst, htemp, hbatt, hwx, hwy, hwz, -⟩ := h
  simp only [recordOf, hts, hst, htemp, hbatt, hwx, hwy, hwz]

/-- The header of a health packet is right by construction, so the checksum alone decides (R72). -/
theorem validate_healthBytes : validate (healthBytes t c temp batt wx wy wz k) =
    if k = xorsum (healthPrefix t c temp batt wx wy wz) then .ok (healthFrame t c temp batt wx wy wz k)
    else .err .checksum := by
  have hcsum : csumOk (xorsum (healthBytes t c temp batt wx wy wz k)) (healthFrame t c temp batt wx wy wz k) =
      decide (k = xorsum (healthPrefix t c temp batt wx wy wz)) := by
    rw [Bool.eq_iff_iff, csumOk_iff, xorsum_healthBytes, decide_eq_true_iff]
    exact eq_comm
  have hsync : syncOk (healthFrame t c temp batt wx wy wz k) = true := (syncOk_iff _).mpr ⟨rfl, rfl⟩
  have htype : typeOk (healthFrame t c temp batt wx wy wz k) = true := (typeOk_iff _).mpr ⟨rfl, rfl⟩
  have h := validate_bytes (healthFrame t c temp batt wx wy wz k)
  simp only [healthFrame] at h hcsum hsync htype ⊢
  rw [h, hcsum, hsync, htype]
  by_cases hk : k = xorsum (healthPrefix t c temp batt wx wy wz)
  · rw [decide_eq_true hk, if_pos hk]
    rfl
  · rw [decide_eq_false hk, if_neg hk]
    rfl

end HealthPacket

/-- A frame with the right header is the packet of the operands the extractor reads from it. -/
theorem encode_healthInstr (f : RawFrame) (hsync : f.byte 0 = 0xAE ∧ f.byte 1 = 0x5F)
    (htype : f.byte 2 = 0x1B ∧ f.byte 3 = 0x0F) : encode (healthInstr f) = .frame f.bytes := by
  obtain ⟨h0, h1⟩ := hsync
  obtain ⟨h2, h3⟩ := htype
  have hhead : bytes16 Config.syncWord ++ [Config.typeId, Config.payloadLen] = [f.byte 0, f.byte 1, f.byte 2, f.byte 3] := by
    rw [h0, h1, h2, h3]
    rfl
  rw [healthInstr, encode, healthBytes, healthPrefix, hhead, extTs_eq, extSt_eq, extTemp_eq, extBatt_eq, extWx_eq, extWy_eq,
    extWz_eq, bytes32_append, bytes16_append, bytes16_append, bytes16_append, bytes16_append, bytes16_append, f.bytes_eq]
  rfl

/-! The decoder, format by format. -/

/-- `i` is a well-formed operation whose word is `w`: what the decoder may answer for `w`. -/
structure IsWordOf (w : Presented) (i : Instr) : Prop where
  wellFormed : WellFormed i
  encodes : encode i = w

theorem decodeFrame_of_ok {cand : Candidate} {f : RawFrame} (h : validate cand = .ok f) :
    decodeFrame cand = .ok (healthInstr f) := by
  simp only [decodeFrame, h, healthInstr]

theorem decodeFrame_of_err {cand : Candidate} {e : ParseError} (h : validate cand = .err e) :
    decodeFrame cand = .error (.notHealthPacket cand e) := by
  simp only [decodeFrame, h]

theorem decodeFrame_isWordOf {cand : Candidate} {i : Instr} (h : decodeFrame cand = .ok i) : IsWordOf (.frame cand) i := by
  cases hv : validate cand with
  | err e => rw [decodeFrame_of_err hv] at h; cases h
  | ok f =>
    rw [decodeFrame_of_ok hv] at h
    cases h
    obtain rfl := validate_ok cand f hv
    obtain ⟨hcsum, hsync, htype⟩ := (validate_eq_ok_iff f).mp hv
    have hencode := encode_healthInstr f hsync htype
    have hbytes := congrArg xorsum (Presented.frame.inj hencode)
    rw [xorsum_healthBytes, hcsum] at hbytes
    exact ⟨(wellFormed_ae1Health_iff ..).mpr hbytes.symm, hencode⟩

/-- A code of 3 or more is none of the three named codes (R74). -/
theorem code_ne_of_three_le {c : Byte} (h : 3 ≤ c.toNat) : c ≠ 0 ∧ c ≠ 1 ∧ c ≠ 2 := by
  refine ⟨?_, ?_, ?_⟩ <;> rintro rfl <;> simp at h

theorem decodeScode_of_three_le {c : Byte} (h : 3 ≤ c.toNat) : decodeScode c = .scodeUnknown c := by
  obtain ⟨h0, h1, h2⟩ := code_ne_of_three_le h
  rw [decodeScode, if_neg h0, if_neg h1, if_neg h2]

theorem sxlate_of_three_le {c : Byte} (h : 3 ≤ c.toNat) : sxlate c = .unknown := by
  obtain ⟨h0, h1, h2⟩ := code_ne_of_three_le h
  rw [sxlate, if_neg h0, if_neg h1, if_neg h2]

theorem decodeScode_isWordOf (c : Byte) : IsWordOf (.scode c) (decodeScode c) := by
  by_cases h : 3 ≤ c.toNat
  · rw [decodeScode_of_three_le h]
    exact ⟨decide_eq_true h, rfl⟩
  · obtain rfl | rfl | rfl : c = 0 ∨ c = 1 ∨ c = 2 := by bv_omega
    all_goals exact ⟨rfl, rfl⟩

theorem decodeStatus_isWordOf (c : BitVec 2) : IsWordOf (.status c) (decodeStatus c) := by
  obtain rfl | rfl | rfl | rfl : c = 0 ∨ c = 1 ∨ c = 2 ∨ c = 3 := by bv_omega
  all_goals exact ⟨rfl, rfl⟩

theorem decodeErr_of_five_le {c : BitVec 3} (h : 5 ≤ c.toNat) : decodeErr c = .error (.unusedErrCode c) := by
  obtain rfl | rfl | rfl : c = 5 ∨ c = 6 ∨ c = 7 := by bv_omega
  all_goals rfl

theorem decodeErr_of_lt_five {c : BitVec 3} (h : c.toNat < 5) : ∃ i, decodeErr c = .ok i ∧ IsWordOf (.err c) i := by
  obtain rfl | rfl | rfl | rfl | rfl : c = 0 ∨ c = 1 ∨ c = 2 ∨ c = 3 ∨ c = 4 := by bv_omega
  all_goals exact ⟨_, rfl, rfl, rfl⟩

@[simp] theorem onRawFrame_bytes (op : OpName) (f : RawFrame) (mk : RawFrame → Decoded) :
    onRawFrame op f.bytes mk = mk f := dif_pos f.len

theorem onRawFrame_of_length_ne {op : OpName} {bytes : List Byte} (mk : RawFrame → Decoded) (h : bytes.length ≠ 20) :
    onRawFrame op bytes mk = .error (.operandLength op bytes.length) := dif_neg h

theorem exists_rawFrame {bytes : List Byte} (h : bytes.length = 20) : ∃ f : RawFrame, f.bytes = bytes :=
  ⟨⟨bytes, h⟩, rfl⟩

/-- A call on a frame's twenty bytes spells an operation of that frame, if what `mk` makes of the frame has that word. -/
theorem onRawFrame_isWordOf {op : OpName} {bytes : List Byte} {mk : RawFrame → Decoded} {i : Instr}
    (h : onRawFrame op bytes mk = .ok i) (hmk : ∀ f, mk f = .ok i → IsWordOf (.call op f.bytes) i) :
    IsWordOf (.call op bytes) i := by
  by_cases hlen : bytes.length = 20
  · obtain ⟨f, rfl⟩ := exists_rawFrame hlen
    rw [onRawFrame_bytes] at h
    exact hmk f h
  · rw [onRawFrame_of_length_ne mk hlen] at h
    cases h

theorem decodeDecode_of_ok {f g : RawFrame} (h : validate f.bytes = .ok g) : decodeDecode f = .ok (.decode f) := by
  simp only [decodeDecode, h]

theorem decodeDecode_of_err {f : RawFrame} {e : ParseError} (h : validate f.bytes = .err e) :
    decodeDecode f = .error (.frameNotValidated e) := by
  simp only [decodeDecode, h]

/-- VALIDATE hands a frame it accepts back unchanged (R105). -/
theorem validate_bytes_ok {f g : RawFrame} (h : validate f.bytes = .ok g) : validate f.bytes = .ok f := by
  have hbytes : g.bytes = f.bytes := validate_ok _ _ h
  obtain ⟨l, hl⟩ := f
  obtain ⟨l', hl'⟩ := g
  cases hbytes
  exact h

theorem decodeDecode_isWordOf {f : RawFrame} {i : Instr} (h : decodeDecode f = .ok i) : IsWordOf (.call .decode f.bytes) i := by
  cases hv : validate f.bytes with
  | err e => rw [decodeDecode_of_err hv] at h; cases h
  | ok g =>
    rw [decodeDecode_of_ok hv] at h
    cases h
    exact ⟨beq_iff_eq.mpr (validate_bytes_ok hv), rfl⟩

theorem decodeCall_isWordOf {op : OpName} {operand : List Byte} {i : Instr} (h : decodeCall op operand = .ok i) :
    IsWordOf (.call op operand) i := by
  cases op with
  | lenchk | xorsum | validate | parse => cases h; exact ⟨rfl, rfl⟩
  | cscmp =>
    match operand, h with
    | xs :: bytes, h =>
      by_cases hlen : bytes.length = 20
      · obtain ⟨f, rfl⟩ := exists_rawFrame hlen
        rw [decodeCall, decodeCscmp, onRawFrame_bytes] at h
        cases h
        exact ⟨rfl, rfl⟩
      · rw [decodeCall, decodeCscmp, onRawFrame_of_length_ne _ hlen] at h
        cases h
  | sxlate =>
    match operand, h with
    | [c], h => cases h; exact ⟨rfl, rfl⟩
  | decode => exact onRawFrame_isWordOf h fun f => decodeDecode_isWordOf
  | _ =>
    rw [decodeCall] at h
    exact onRawFrame_isWordOf h fun f hf => by cases hf; exact ⟨rfl, rfl⟩

/-- Whatever the decoder answers, off the port, is a well-formed operation with that word. -/
theorem decode_isWordOf {w : Presented} {i : Instr} (hw : w.format ≠ .step) (h : decode w = .ok i) : IsWordOf w i := by
  cases w with
  | port p => exact absurd rfl hw
  | frame cand => exact decodeFrame_isWordOf h
  | scode c => cases h; exact decodeScode_isWordOf c
  | status c => cases h; exact decodeStatus_isWordOf c
  | err c =>
    by_cases hc : 5 ≤ c.toNat
    · cases (decodeErr_of_five_le hc).symm.trans h
    · obtain ⟨j, hj, hword⟩ := decodeErr_of_lt_five (Nat.lt_of_not_le hc)
      cases hj.symm.trans h
      exact hword
  | call op operand => exact decodeCall_isWordOf h

theorem wellFormed_decodePort (p : PortIn) : WellFormed (decodePort p) := by
  unfold decodePort
  split
  · rfl
  · split
    · rfl
    · split <;> rfl

theorem decode_wellFormed {w : Presented} {i : Instr} (h : decode w = .ok i) : WellFormed i := by
  by_cases hw : w.format = .step
  · match w, h with
    | .port p, h => cases h; exact wellFormed_decodePort p
    | .call op _, _ => cases op <;> cases hw
  · exact (decode_isWordOf hw h).wellFormed

/-! Which calls carry their operand (log 12). -/

theorem decodeCall_of_fits {op : OpName} {bytes : List Byte} (h : callFits op bytes) : ∃ i, decodeCall op bytes = .ok i := by
  cases op with
  | lenchk | xorsum | validate | parse => exact ⟨_, rfl⟩
  | cscmp =>
    match bytes, h with
    | xs :: bytes, h =>
      obtain ⟨f, rfl⟩ := exists_rawFrame (Nat.succ.inj h)
      exact ⟨_, by rw [decodeCall, decodeCscmp, onRawFrame_bytes]⟩
  | sxlate =>
    obtain ⟨c, rfl⟩ := List.length_eq_one_iff.mp h
    exact ⟨_, rfl⟩
  | decode =>
    obtain ⟨f, hf⟩ := h
    obtain rfl := validate_ok _ _ hf
    exact ⟨_, (onRawFrame_bytes _ f _).trans (decodeDecode_of_ok hf)⟩
  | _ =>
    obtain ⟨f, rfl⟩ := exists_rawFrame h
    exact ⟨_, by rw [decodeCall, onRawFrame_bytes]⟩

theorem decodeCall_of_not_fits {op : OpName} {bytes : List Byte} (h : ¬ callFits op bytes) :
    (∃ n, decodeCall op bytes = .error (.operandLength op n)) ∨
      ∃ e, decodeCall op bytes = .error (.frameNotValidated e) := by
  cases op with
  | lenchk | xorsum | validate | parse => exact absurd trivial h
  | cscmp =>
    match bytes, h with
    | [], _ => exact .inl ⟨_, rfl⟩
    | xs :: bytes, h =>
      have hlen : bytes.length ≠ 20 := fun hlen => h (congrArg Nat.succ hlen)
      exact .inl ⟨_, by rw [decodeCall, decodeCscmp, onRawFrame_of_length_ne _ hlen]⟩
  | sxlate =>
    match bytes, h with
    | [], _ => exact .inl ⟨_, rfl⟩
    | [c], h => exact absurd rfl h
    | _ :: _ :: _, _ => exact .inl ⟨_, rfl⟩
  | decode =>
    by_cases hlen : bytes.length = 20
    · obtain ⟨f, rfl⟩ := exists_rawFrame hlen
      cases hv : validate f.bytes with
      | ok g => exact absurd ⟨g, hv⟩ h
      | err e => exact .inr ⟨e, (onRawFrame_bytes _ f _).trans (decodeDecode_of_err hv)⟩
    · exact .inl ⟨_, onRawFrame_of_length_ne _ hlen⟩
  | _ => exact .inl ⟨_, by rw [decodeCall, onRawFrame_of_length_ne _ h]⟩

/-! What a step does with what it is presented. -/

theorem step_of_decode_ok {s : State} {w : Presented} {i : Instr} (hw : fetched s = w) (h : decode w = .ok i) :
    step s = exec i s.consume := by
  simp only [step, hw, h]

theorem step_of_decode_error {s : State} {w : Presented} {e : DecodeError} (hw : fetched s = w) (h : decode w = .error e) :
    step s = undecoded e s.consume := by
  simp only [step, hw, h]

/-- DECODE is the one operation that can stop, and its well-formed operand is a validated frame (R128). -/
theorem exec_completes_of_wellFormed (i : Instr) (s : State) (h : WellFormed i) : ∃ t, exec i s = .next t := by
  cases i with
  | decode f =>
    have hv : validate f.bytes = .ok f := beq_iff_eq.mp h
    exact ⟨s.returns (.record (recordOf f)), by simp only [exec, execDecode, hv]⟩
  | last d => exact ⟨_, execLast_eq d s⟩
  | _ => exact ⟨_, rfl⟩

theorem step_completes_of_decode_ok {s : State} {w : Presented} {i : Instr} (hw : fetched s = w) (h : decode w = .ok i) :
    ∃ t, step s = .next t := by
  rw [step_of_decode_ok hw h]
  exact exec_completes_of_wellFormed i s.consume (decode_wellFormed h)

theorem execParse_of_ok {cand : Candidate} {f : RawFrame} (s : State) (h : validate cand = .ok f) :
    execParse cand s = .next (s.returns (.parsed (.ok (recordOf f))
      { ok := true, err := .errNone, xsum := xorsum cand, record := recordOf f })) := by
  simp only [execParse, parse, h, parseOut_of_ok cand f h]

theorem execParse_of_err {cand : Candidate} {e : ParseError} (s : State) (h : validate cand = .err e) :
    execParse cand s = .next (s.returns (.parsed (.err e)
      { ok := false, err := e.errCode, xsum := xorsum cand, record := nullRecord })) := by
  simp only [execParse, parse, h, parseOut_of_err cand e h]

/-! The frame word against mask and match (R72). -/

/-- A frame word is known by its twenty byte slices. -/
theorem word_eq_of_byte_slices {v w : BitVec 160}
    (h : ∀ i : Fin 20, v.extractLsb' (152 - 8 * i.val) 8 = w.extractLsb' (152 - 8 * i.val) 8) : v = w := by
  apply BitVec.eq_of_getLsbD_eq
  intro p hp
  have hbit := congrArg (fun b : Byte => b.getLsbD (p % 8)) (h ⟨19 - p / 8, by omega⟩)
  have hpos : 152 - 8 * (19 - p / 8) + p % 8 = p := by omega
  simpa [BitVec.getLsbD_extractLsb', Nat.mod_lt, hpos] using hbit

/-- The mask keeps bytes 0 to 3. -/
theorem frameMask_slice (i : Fin 20) :
    Config.frameMask.extractLsb' (152 - 8 * i.val) 8 = if i.val < 4 then 0xFF#8 else 0#8 := by
  revert i; decide

/-- The match is the four header bytes. -/
theorem frameMatch_slice (i : Fin 20) :
    Config.frameMatch.extractLsb' (152 - 8 * i.val) 8 = [0xAE#8, 0x5F#8, 0x1B#8, 0x0F#8].getD i.val 0#8 := by
  revert i; decide

theorem frameWord_matches_iff (f : RawFrame) : frameWord f &&& Config.frameMask = Config.frameMatch ↔
    (f.byte 0 = 0xAE ∧ f.byte 1 = 0x5F) ∧ (f.byte 2 = 0x1B ∧ f.byte 3 = 0x0F) := by
  have hslices : frameWord f &&& Config.frameMask = Config.frameMatch ↔ ∀ i : Fin 20,
      (f.byte i &&& if i.val < 4 then 0xFF#8 else 0#8) = [0xAE#8, 0x5F#8, 0x1B#8, 0x0F#8].getD i.val 0#8 := by
    simp only [← frameMask_slice, ← frameMatch_slice, ← frameWordSliceIsTheByte f, ← BitVec.extractLsb'_and]
    exact ⟨fun h i => by rw [h], word_eq_of_byte_slices⟩
  have hkeep : ∀ b : Byte, b &&& 0xFF#8 = b := fun b => BitVec.and_allOnes
  rw [hslices]
  simp [Fin.forall_fin_succ, hkeep, and_assoc]

/-- The checksum of a frame, taken over the slices of its word (R10, R101). -/
theorem xorsum_eq_foldl_slices (f : RawFrame) : xorsum f.bytes =
    (List.range 19).foldl (fun x i => x ^^^ (frameWord f).extractLsb' (152 - 8 * i) 8) 0#8 := by
  have hbytes : f.bytes.take 19 = (List.range 19).map fun i => (frameWord f).extractLsb' (152 - 8 * i) 8 := by
    refine List.ext_getElem (by simp [f.len]) fun i hi _ => ?_
    have hi : i < 20 := by simp [f.len] at hi; omega
    simpa [RawFrame.byte] using (frameWordSliceIsTheByte f ⟨i, hi⟩).symm
  rw [xorsum, hbytes, List.foldl_map]
  rfl

/-! The obligations. -/

/-- Settles O1: row by row; the operands of AE1_HEALTH are read back from its bytes, and the operand of a call is its bytes. -/
theorem decodeOfEncodeIsTheOperation : Obligations.DecodeOfEncodeIsTheOperation := by
  intro i h
  cases i with
  | ae1Health t c temp batt wx wy wz k =>
    have hv := validate_healthBytes t c temp batt wx wy wz k
    rw [if_pos ((wellFormed_ae1Health_iff ..).mp h)] at hv
    exact (decodeFrame_of_ok hv).trans (congrArg _ (healthInstr_healthFrame ..))
  | scodeUnknown c => exact congrArg _ (decodeScode_of_three_le (of_decide_eq_true h))
  | decode f => exact (onRawFrame_bytes _ f _).trans (decodeDecode_of_ok (beq_iff_eq.mp h))
  | cscmp _ f | syncmatch f | typematch f | extTs f | extSt f | extTemp f | extBatt f | extWx f | extWy f | extWz f =>
    simp only [encode, decode, decodeCall, decodeCscmp, onRawFrame_bytes]
  | _ => rfl

/-- Settles O2: off the port the operation has that word; on the port every step is well formed. -/
theorem decodedOperationIsWellFormed : Obligations.DecodedOperationIsWellFormed :=
  fun _ _ h => decode_wellFormed h

/-- Settles O3: what the decoder answers has the word it was given. -/
theorem encodeOfDecodeIsTheWord : Obligations.EncodeOfDecodeIsTheWord :=
  fun _ _ hw h => (decode_isWordOf hw h).encodes

/-- Settles O5: VALIDATE's three checks on a 20-byte frame are the match of the header and the checksum of the word. -/
theorem healthPacketIffMaskAndChecksum : Obligations.HealthPacketIffMaskAndChecksum := by
  refine ⟨fun f => ?_, fun cand h => decodeFrame_of_err (validate_of_length_ne cand h)⟩
  have hdecode : (∃ i, decode (.frame f.bytes) = .ok i) ↔ validate f.bytes = .ok f := by
    refine ⟨fun ⟨i, hi⟩ => ?_, fun hv => ⟨_, decodeFrame_of_ok hv⟩⟩
    cases hv : validate f.bytes with
    | ok g => rw [← hv, validate_bytes_ok hv]
    | err e => cases (decodeFrame_of_err hv).symm.trans hi
  have hlast : (frameWord f).extractLsb' 0 8 = f.byte 19 := frameWordSliceIsTheByte f 19
  rw [hdecode, validate_eq_ok_iff, frameWord_matches_iff, hlast, ← xorsum_eq_foldl_slices]
  exact ⟨fun ⟨hcsum, hhead⟩ => ⟨hhead, hcsum.symm⟩, fun ⟨hhead, hcsum⟩ => ⟨hcsum.symm, hhead⟩⟩

/-- Settles O11: everything presented but an unused `ERR` code and a call that does not fit decodes to a well-formed
operation, which completes, or is a candidate that is rejected. -/
theorem stepStopsOnlyWhereTheSpecGivesNothing : Obligations.StepStopsOnlyWhereTheSpecGivesNothing := by
  intro s
  refine ⟨fun c hf hc => ?_, fun op bytes hf hfit => ?_, fun herr hcall => ?_⟩
  · exact step_of_decode_error hf (decodeErr_of_five_le hc)
  · obtain ⟨n, hn⟩ | ⟨e, he⟩ := decodeCall_of_not_fits hfit
    · exact .inl (step_of_decode_error hf hn)
    · exact .inr (step_of_decode_error hf he)
  · cases hf : fetched s with
    | port p => exact step_completes_of_decode_ok hf rfl
    | scode c => exact step_completes_of_decode_ok hf rfl
    | status c => exact step_completes_of_decode_ok hf rfl
    | frame cand =>
      cases hv : validate cand with
      | ok f => exact step_completes_of_decode_ok hf (decodeFrame_of_ok hv)
      | err e => exact ⟨_, step_of_decode_error hf (decodeFrame_of_err hv)⟩
    | err c =>
      obtain ⟨i, hi, -⟩ := decodeErr_of_lt_five (herr c hf)
      exact step_completes_of_decode_ok hf hi
    | call op bytes =>
      obtain ⟨i, hi⟩ := decodeCall_of_fits (hcall op bytes hf)
      exact step_completes_of_decode_ok hf hi

/-- Settles O34: VALIDATE accepts the packet's bytes, and DECODE reads its operands back. -/
theorem healthPacketParsesToItsOperands : Obligations.HealthPacketParsesToItsOperands := by
  intro t c temp batt wx wy wz k s h
  have hk := (wellFormed_ae1Health_iff ..).mp h
  have hv := validate_healthBytes t c temp batt wx wy wz k
  rw [if_pos hk] at hv
  refine ⟨_, rfl, ?_⟩
  rw [exec, execAe1Health, execParse_of_ok s hv, recordOf_healthFrame, xorsum_healthBytes, ← hk]
  rfl

/-- Settles O35: the header is right, so VALIDATE's answer to the packet's bytes is the checksum error. -/
theorem healthPacketWithAnotherChecksumIsRejected : Obligations.HealthPacketWithAnotherChecksumIsRejected := by
  intro t c temp batt wx wy wz k s h
  have hv := validate_healthBytes t c temp batt wx wy wz k
  rw [if_neg (mt (wellFormed_ae1Health_iff ..).mpr h)] at hv
  rw [exec, execAe1Health, execParse_of_err s hv, xorsum_healthBytes]
  rfl

/-- Settles O6: each word is run through the decoder. -/
theorem specWordsDecode : Obligations.SpecWordsDecode := by
  unfold Obligations.SpecWordsDecode
  decide

/-- Settles O10: a candidate that VALIDATE rejects does not decode, and the step hands PARSE's rejection to the caller. -/
theorem unrecognisedFrameIsRejected : Obligations.UnrecognisedFrameIsRejected := by
  intro s cand rest e hin hv
  have hd : decode (.frame cand) = .error (.notHealthPacket cand e) := decodeFrame_of_err hv
  have hf : fetched s = .frame cand := by simp [fetched, hin]
  refine ⟨hd, ?_⟩
  rw [step_of_decode_error hf hd, undecoded, execParse_of_err _ hv, State.consume, hin]
  rfl

/-- Settles O13: codes 0, 1 and 2 are rows of their own, and every other code is unknown to the decoder and to SXLATE. -/
theorem statusCodeRowsTranslate : Obligations.StatusCodeRowsTranslate := by
  refine ⟨rfl, rfl, rfl, fun c hc => congrArg _ (decodeScode_of_three_le hc), fun s => ⟨rfl, rfl, rfl, fun c hc => ?_⟩⟩
  rw [exec, execScodeUnknown, sxlate_of_three_le hc]
  rfl

/-- Settles O16: the four codes are four rows, and each row's reading is its variant. -/
theorem statusCodesTellTheirVariant : Obligations.StatusCodesTellTheirVariant :=
  ⟨⟨rfl, rfl, rfl, rfl⟩, ⟨rfl, rfl, rfl, rfl⟩, fun _ => ⟨rfl, rfl, rfl, rfl⟩⟩

theorem errCode_le_four (e : ErrCode) : e.code.toNat ≤ 4 := by cases e <;> decide

/-- Settles O17: five codes are rows, the other three are none, and no value of the `ERR` register has one of those three. -/
theorem errCodesTellTheirCause : Obligations.ErrCodesTellTheirCause :=
  ⟨⟨rfl, rfl, rfl, rfl, rfl, fun _ hc => decodeErr_of_five_le hc⟩, ⟨rfl, rfl, rfl, rfl, rfl⟩,
    fun s => ⟨errCode_le_four s.err, rfl, rfl, rfl, rfl, rfl⟩⟩

end Sys2Proof.Machine

/-! Proofs of the validator obligations (spec/40_validator.md). First the XOR of a byte string and the checksum as one; then
the answers of the single checks and of VALIDATE, case by case; then the obligations. -/
namespace Sys2Proof.Machine

/-! The XOR of a byte string (R101). -/

/-- The XOR of all bytes of a string, the fold XORSUM runs over its first nineteen bytes. -/
def xorAll (l : List Byte) : Byte := l.foldl (fun x b => x ^^^ b) 0x00

theorem xorsum_eq_xorAll_take (c : Candidate) : xorsum c = xorAll (c.take 19) := rfl

@[simp] theorem xorAll_nil : xorAll [] = 0x00 := rfl

theorem xorAll_concat (l : List Byte) (b : Byte) : xorAll (l ++ [b]) = xorAll l ^^^ b := List.foldl_concat ..

@[simp] theorem xorAll_cons (b : Byte) (l : List Byte) : xorAll (b :: l) = b ^^^ xorAll l := by
  have hassoc : l.foldl (fun x b => x ^^^ b) (b ^^^ 0x00) = b ^^^ xorAll l := List.foldl_assoc
  simpa [xorAll] using hassoc

/-- A byte changed by `d` changes the XOR by `d`, wherever it stands. -/
theorem xorAll_set_xor (l : List Byte) (i : Nat) (h : i < l.length) (d : Byte) :
    xorAll (l.set i (l[i] ^^^ d)) = xorAll l ^^^ d := by
  induction l generalizing i with
  | nil => simp at h
  | cons b l ih =>
    cases i with
    | zero => simp only [List.getElem_cons_zero, List.set_cons_zero, xorAll_cons]; ac_rfl
    | succ i =>
      simp only [List.getElem_cons_succ, List.set_cons_succ, xorAll_cons, ih i (Nat.lt_of_succ_lt_succ h), BitVec.xor_assoc]

/-- Each bit column is independent: its XOR is the parity of the bytes that have the bit. -/
theorem getLsbD_xorAll (l : List Byte) (j : Nat) :
    (xorAll l).getLsbD j = decide (l.countP (fun b => b.getLsbD j) % 2 = 1) := by
  induction l with
  | nil => simp
  | cons b l ih =>
    rw [xorAll_cons, BitVec.getLsbD_xor, ih, List.countP_cons]
    cases b.getLsbD j with
    | false => simp
    | true =>
      rw [Bool.true_xor, ← decide_not, decide_eq_decide, if_pos rfl]
      omega

theorem xorAll_perm {l l' : List Byte} (h : l.Perm l') : xorAll l = xorAll l' :=
  h.foldl_eq' (fun x _ y _ z => by ac_rfl) _

/-! The checksum of a frame against its byte 19 (R102). -/

/-- The checksum of a frame with the checksum byte is the XOR of all twenty bytes. -/
theorem xorAll_bytes (f : RawFrame) : xorAll f.bytes = xorsum f.bytes ^^^ f.byte 19 := by
  have hsplit : f.bytes = f.bytes.take 19 ++ [f.byte 19] := by
    calc f.bytes = f.bytes.take 20 := (List.take_of_length_le f.len.le).symm
      _ = f.bytes.take 19 ++ [f.byte 19] := (List.take_concat_get' f.bytes 19 (by rw [f.len]; decide)).symm
  rw [hsplit, xorAll_concat, ← hsplit, xorsum_eq_xorAll_take]

/-- Passing is the XOR of all twenty bytes being 0. -/
theorem csumOk_iff_xorAll_eq_zero (f : RawFrame) : csumOk (xorsum f.bytes) f = true ↔ xorAll f.bytes = 0#8 := by
  rw [csumOk_iff, xorAll_bytes, BitVec.xor_eq_zero_iff]

/-! What the checks and VALIDATE answer, case by case (R100 to R105). -/

/-- A check whose flag says `P` raises nothing where `P` holds, and its error where it does not. -/
theorem check_raises_unless {i : Instr} {s : State} {n : CheckName} {e : ParseError} {flag : Bool} {P : Prop}
    (hflag : flag = true ↔ P) (hexec : exec i s = .next (s.returns (.check n flag (raisedBy e flag)))) :
    (P → exec i s = .next { s with ret := some (.check n true none) }) ∧
      (¬ P → exec i s = .next { s with ret := some (.check n false (some e)) }) := by
  refine ⟨fun h => ?_, fun h => ?_⟩
  · rw [hexec, hflag.mpr h]
    rfl
  · rw [hexec, Bool.eq_false_of_not_eq_true (mt hflag.mp h)]
    rfl

theorem lenOk_iff (cand : Candidate) : lenOk cand = true ↔ cand.length = 20 := beq_iff_eq

theorem checkFlags_of_length_ne {cand : Candidate} (h : cand.length ≠ 20) : checkFlags cand = ⟨false, none, none, none⟩ :=
  dif_neg h

theorem checkFlags_bytes (f : RawFrame) : checkFlags f.bytes =
    ⟨true, some (csumOk (xorsum f.bytes) f), some (syncOk f), some (typeOk f)⟩ := dif_pos f.len

section PriorityOfTheChecks
variable {f : RawFrame}

theorem validate_of_csum_ne (hcsum : xorsum f.bytes ≠ f.byte 19) : validate f.bytes = .err .checksum := by
  rw [validate_bytes, Bool.eq_false_of_not_eq_true (mt (csumOk_iff _ f).mp hcsum)]
  rfl

theorem validate_of_sync_ne (hcsum : xorsum f.bytes = f.byte 19) (hsync : ¬ (f.byte 0 = 0xAE ∧ f.byte 1 = 0x5F)) :
    validate f.bytes = .err .syncWord := by
  rw [validate_bytes, (csumOk_iff _ f).mpr hcsum, Bool.eq_false_of_not_eq_true (mt (syncOk_iff f).mp hsync)]
  rfl

theorem validate_of_type_ne (hcsum : xorsum f.bytes = f.byte 19) (hsync : f.byte 0 = 0xAE ∧ f.byte 1 = 0x5F)
    (htype : ¬ (f.byte 2 = 0x1B ∧ f.byte 3 = 0x0F)) : validate f.bytes = .err .frameType := by
  rw [validate_bytes, (csumOk_iff _ f).mpr hcsum, (syncOk_iff f).mpr hsync,
    Bool.eq_false_of_not_eq_true (mt (typeOk_iff f).mp htype)]
  rfl

end PriorityOfTheChecks

theorem twoPow_ne_zero (j : Fin 8) : BitVec.twoPow 8 j.val ≠ 0#8 := by revert j; decide

/-- One flipped bit makes the XOR of the twenty bytes nonzero, so the checksum does not pass (R106 b). -/
theorem validate_flipBit (f : RawFrame) (i : Fin 20) (j : Fin 8) (h : validate f.bytes = .ok f) :
    validate (flipBit f i j) = .err .checksum := by
  obtain ⟨g, hg⟩ := exists_rawFrame (bytes := flipBit f i j) (by rw [flipBit, List.length_set, f.len])
  have hf : xorAll f.bytes = 0#8 := by
    rw [← csumOk_iff_xorAll_eq_zero, csumOk_iff]
    exact ((validate_eq_ok_iff f).mp h).1
  have hflip : xorAll g.bytes = BitVec.twoPow 8 j.val := by
    rw [hg, flipBit, RawFrame.byte, xorAll_set_xor, hf, BitVec.zero_xor]
  rw [← hg]
  refine validate_of_csum_ne fun hcsum => twoPow_ne_zero j ?_
  rw [← hflip, ← csumOk_iff_xorAll_eq_zero, csumOk_iff]
  exact hcsum

/-! The obligations. -/

/-- Settles O19: the checksum is the XOR of the first nineteen bytes, and a column of an XOR is a parity. -/
theorem xorsumIsColumnParity : Obligations.XorsumIsColumnParity :=
  fun cand _ => ⟨xorsum cand, rfl, fun j _ => getLsbD_xorAll (cand.take 19) j⟩

/-- Settles O20: XOR does not see an order. -/
theorem xorsumIgnoresByteOrder : Obligations.XorsumIgnoresByteOrder := by
  intro c d s h
  have hsum : xorsum c = xorsum d := xorAll_perm h
  rw [exec, exec, execXorsum, execXorsum, hsum]

/-- Settles O22: the byte after the nineteen is byte 19 and is not summed, and it equals the sum iff the XOR of both is 0. -/
theorem exactlyOneChecksumByte : Obligations.ExactlyOneChecksumByte := by
  intro bytes k f h
  refine ⟨?_, csumOk_iff_xorAll_eq_zero f⟩
  have hlen : bytes.length = 19 := by simpa [h] using f.len
  have hbyte : f.byte 19 = k := by simp [RawFrame.byte, h, hlen]
  have hsum : xorsum f.bytes = xorsum bytes := by rw [h, xorsum_append, if_neg (by omega)]
  rw [csumOk_iff, hbyte, hsum, eq_comm]

/-- Settles O25: the flags are the checks' own, and each clause fixes the first check that fails. -/
theorem validateAnswersTheFirstFailingCheck : Obligations.ValidateAnswersTheFirstFailingCheck := by
  intro cand s
  refine ⟨checkFlags cand, validate cand, rfl, fun h => ⟨checkFlags_of_length_ne h, validate_of_length_ne cand h⟩, ?_⟩
  rintro f rfl
  refine ⟨?_, validate_of_csum_ne, validate_of_sync_ne, validate_of_type_ne, fun hcsum hsync htype =>
    (validate_eq_ok_iff f).mpr ⟨hcsum, hsync, htype⟩⟩
  simp only [checkFlags_bytes, ← csumOk_iff, ← syncOk_iff, ← typeOk_iff, Bool.decide_eq_true]

/-- Settles O26: VALIDATE answers the checksum error, and PARSE presents it with the null record. -/
theorem oneFlippedBitIsAChecksumError : Obligations.OneFlippedBitIsAChecksumError := by
  intro f i j s h
  exact ⟨_, execParse_of_err s (validate_flipBit f i j h), rfl, rfl, rfl⟩

/-- Settles O18: `len_ok` is the comparison of the length with 20. -/
theorem lenchkRaisesUnlessTwentyBytes : Obligations.LenchkRaisesUnlessTwentyBytes :=
  ⟨rfl, rfl, fun cand _ => check_raises_unless (lenOk_iff cand) rfl⟩

/-- Settles O21: `csum_ok` is the comparison with byte 19. -/
theorem cscmpComparesByteNineteen : Obligations.CscmpComparesByteNineteen :=
  ⟨rfl, rfl, fun xs f _ => check_raises_unless (csumOk_iff xs f) rfl⟩

/-- Settles O23: `sync_ok` is the comparison of bytes 0 and 1. -/
theorem syncmatchComparesTheFirstTwoBytes : Obligations.SyncmatchComparesTheFirstTwoBytes :=
  ⟨rfl, rfl, fun f _ => check_raises_unless (syncOk_iff f) rfl⟩

/-- Settles O24: `type_ok` is the comparison of bytes 2 and 3, with one error for either. -/
theorem typematchComparesTypeAndLength : Obligations.TypematchComparesTypeAndLength :=
  ⟨rfl, rfl, fun f _ => check_raises_unless (typeOk_iff f) rfl⟩

end Sys2Proof.Machine

/-! Proofs of the decoder obligations (spec/41_decoder.md). First what two joined bytes are worth and what SXLATE answers; then
DECODE, and the frame around a payload; then the obligations. -/
namespace Sys2Proof.Machine

/-! The two's-complement value of two joined bytes (R11, R122). -/

theorem toInt_join16 (a b : Byte) : (a ++ b : BitVec (8 + 8)).toInt =
    if a.toNat < 128 then (a.toNat * 256 + b.toNat : Int) else a.toNat * 256 + b.toNat - 65536 := by
  have hb := b.isLt
  rw [BitVec.toInt_eq_toNat_cond, toNat_append_byte]
  split_ifs <;> omega

/-! SXLATE, by its three named codes (R127). -/

theorem sxlate_eq_named_iff (c : Byte) :
    (sxlate c = .safe ↔ c = 0) ∧ (sxlate c = .nominal ↔ c = 1) ∧ (sxlate c = .science ↔ c = 2) := by
  by_cases h : 3 ≤ c.toNat
  · obtain ⟨h0, h1, h2⟩ := code_ne_of_three_le h
    rw [sxlate_of_three_le h]
    exact ⟨iff_of_false nofun h0, iff_of_false nofun h1, iff_of_false nofun h2⟩
  · obtain rfl | rfl | rfl : c = 0 ∨ c = 1 ∨ c = 2 := by bv_omega
    all_goals decide

/-! DECODE of a frame, by VALIDATE's answer (R128). -/

theorem execDecode_of_ok {f g : RawFrame} (s : State) (h : validate f.bytes = .ok g) :
    execDecode f s = .next (s.returns (.record (recordOf g))) := by
  simp only [execDecode, h]

theorem execDecode_of_err {f : RawFrame} {e : ParseError} (s : State) (h : validate f.bytes = .err e) :
    execDecode f s = .refused .frameNotValidated := by
  simp only [execDecode, h]

theorem wellFormed_decode_iff (f : RawFrame) : WellFormed (.decode f) ↔ validate f.bytes = .ok f := beq_iff_eq

/-! The frame around a payload (R130). -/

/-- The frame is the right header, the fifteen payload bytes `P`, and the byte `k`. -/
structure Carries (f : RawFrame) (P : List Byte) (k : Byte) : Prop where
  length : P.length = 15
  bytes : f.bytes = [0xAE, 0x5F, 0x1B, 0x0F] ++ P ++ [k]

section Payload
variable {f : RawFrame} {P : List Byte} {k : Byte}

theorem exists_carries (k : Byte) (hP : P.length = 15) : ∃ f, Carries f P k := by
  obtain ⟨f, hf⟩ := exists_rawFrame (bytes := [0xAE, 0x5F, 0x1B, 0x0F] ++ P ++ [k]) (by simp [hP])
  exact ⟨f, hP, hf⟩

/-- The header, the payload and the checksum byte stand at offsets 0 to 3, 4 to 18 and 19. -/
theorem Carries.offsets (h : Carries f P k) :
    [f.byte 0, f.byte 1, f.byte 2, f.byte 3] = [0xAE, 0x5F, 0x1B, 0x0F] ∧
    [f.byte 4, f.byte 5, f.byte 6, f.byte 7, f.byte 8, f.byte 9, f.byte 10, f.byte 11, f.byte 12, f.byte 13, f.byte 14,
      f.byte 15, f.byte 16, f.byte 17, f.byte 18] = P ∧ f.byte 19 = k := by
  have hbytes := f.bytes_eq.symm.trans h.bytes
  rw [List.append_assoc] at hbytes
  obtain ⟨hhead, htail⟩ := List.append_inj (s₁ := [f.byte 0, f.byte 1, f.byte 2, f.byte 3]) hbytes rfl
  obtain ⟨hpayload, hlast⟩ := List.append_inj (s₁ := [f.byte 4, f.byte 5, f.byte 6, f.byte 7, f.byte 8, f.byte 9, f.byte 10,
    f.byte 11, f.byte 12, f.byte 13, f.byte 14, f.byte 15, f.byte 16, f.byte 17, f.byte 18]) htail h.length.symm
  exact ⟨hhead, hpayload, List.singleton_inj.mp hlast⟩

theorem Carries.xorsum_bytes (h : Carries f P k) : xorsum f.bytes = xorsum ([0xAE, 0x5F, 0x1B, 0x0F] ++ P) := by
  rw [h.bytes, xorsum_append, if_neg (by simp [h.length])]

/-- The header is right by construction, so the right checksum byte makes the frame accepted. -/
theorem Carries.validate_eq_ok (h : Carries f P k) (hk : k = xorsum ([0xAE, 0x5F, 0x1B, 0x0F] ++ P)) :
    validate f.bytes = .ok f := by
  obtain ⟨hhead, -, hlast⟩ := h.offsets
  rw [validate_eq_ok_iff, h.xorsum_bytes, hlast]
  simpa [hk, and_assoc] using hhead

/-- DECODE's record splits back into the payload's bytes (R129). -/
theorem Carries.recordOf_fields (h : Carries f P k) :
    bytes32 (recordOf f).timestamp = P.take 4 ∧ bytes16 (recordOf f).temperatureC = (P.drop 5).take 2 ∧
    bytes16 (recordOf f).batteryMv = (P.drop 7).take 2 ∧ bytes16 (recordOf f).wheelX = (P.drop 9).take 2 ∧
    bytes16 (recordOf f).wheelY = (P.drop 11).take 2 ∧ bytes16 (recordOf f).wheelZ = (P.drop 13).take 2 := by
  obtain ⟨-, rfl, -⟩ := h.offsets
  exact ⟨bytes32_append .., bytes16_append .., bytes16_append .., bytes16_append .., bytes16_append .., bytes16_append ..⟩

/-- DECODE's status is the translation of the payload's byte 4. -/
theorem Carries.recordOf_status (h : Carries f P k) : ∃ c, P[4]? = some c ∧ (recordOf f).status = sxlate c := by
  obtain ⟨-, rfl, -⟩ := h.offsets
  exact ⟨f.byte 8, rfl, rfl⟩

end Payload

/-! The obligations. -/

/-- Settles O33: the frame around the payload is accepted, and each field of its record is read from the payload's bytes. -/
theorem payloadRoundTrip : Obligations.PayloadRoundTrip := by
  intro P s hP
  obtain ⟨f, hf⟩ := exists_carries (xorsum ([0xAE, 0x5F, 0x1B, 0x0F] ++ P)) hP
  have hexec := execParse_of_ok s (hf.validate_eq_ok rfl)
  rw [hf.xorsum_bytes, hf.bytes] at hexec
  obtain ⟨hts, htemp, hbatt, hwx, hwy, hwz⟩ := hf.recordOf_fields
  obtain ⟨c, hc, hstatus⟩ := hf.recordOf_status
  refine ⟨recordOf f, _, hexec, rfl, hts, htemp, hbatt, hwx, hwy, hwz, ?_⟩
  rw [hc, hstatus, Option.some_inj, Option.some_inj, Option.some_inj]
  exact sxlate_eq_named_iff c

/-- Settles O28: each field is its bytes joined, and each byte joined is one more base-256 digit. -/
theorem unsignedExtractionsReadTheirBytes : Obligations.UnsignedExtractionsReadTheirBytes := by
  intro f s
  refine ⟨⟨extTs f, rfl, ?_, rfl⟩, ⟨extSt f, rfl, extSt_eq f, rfl⟩, ⟨extBatt f, rfl, ?_, rfl⟩⟩
  · rw [extTs_eq, toNat_join32]
    omega
  · rw [extBatt_eq, toNat_append_byte]

/-- Settles O29: each field is its two bytes joined, and the sign of the value is the top bit of the first. -/
theorem signedExtractionsReadTwosComplement : Obligations.SignedExtractionsReadTwosComplement := by
  intro f s i hi lo h
  refine ⟨(f.byte hi ++ f.byte lo : BitVec (8 + 8)), ?_, toNat_append_byte _ _, toInt_join16 _ _⟩
  obtain ⟨rfl, rfl, rfl⟩ | ⟨rfl, rfl, rfl⟩ | ⟨rfl, rfl, rfl⟩ | ⟨rfl, rfl, rfl⟩ := h
  all_goals rfl

/-- Settles O14: the three named codes are SXLATE's three branches, and every other code falls to the default. -/
theorem sxlateTranslatesEveryCode : Obligations.SxlateTranslatesEveryCode := by
  intro c s
  obtain ⟨hsafe, hnominal, hscience⟩ := sxlate_eq_named_iff c
  exact ⟨sxlate c, rfl, fun h => hsafe.mpr (BitVec.eq_of_toNat_eq h), fun h => hnominal.mpr (BitVec.eq_of_toNat_eq h),
    fun h => hscience.mpr (BitVec.eq_of_toNat_eq h), sxlate_of_three_le⟩

/-- Settles O15: the codes below 4 are their own low bits, and a code from 4 on has a high bit and is unknown. -/
theorem statusRegisterCodeInBits : Obligations.StatusRegisterCodeInBits := by
  intro c
  by_cases h : c.toNat < 4
  · obtain rfl | rfl | rfl | rfl : c = 0 ∨ c = 1 ∨ c = 2 ∨ c = 3 := by bv_omega
    all_goals decide
  · have hhigh : c.extractLsb' 2 6 ≠ 0 := fun h0 => by
      have hdiv := congrArg BitVec.toNat h0
      simp only [BitVec.extractLsb'_toNat, Nat.shiftRight_eq_div_pow, BitVec.ofNat_eq_ofNat, BitVec.toNat_ofNat] at hdiv
      have hc := c.isLt
      omega
    rw [sxlate_of_three_le (by omega), if_neg hhigh]
    rfl

/-- Settles O30: VALIDATE hands the frame back, and its record's fields are its bytes joined. -/
theorem decodeReturnsTheRecord : Obligations.DecodeReturnsTheRecord := by
  intro f s h
  rw [exec, execDecode_of_ok s h, recordOf, extTs_eq, extSt_eq, extTemp_eq, extBatt_eq, extWx_eq, extWy_eq, extWz_eq]
  rfl

/-- Settles O31: `exec`, the well-formedness check and the decoder all turn on VALIDATE's answer. -/
theorem decodeRefusesAFrameNotValidated : Obligations.DecodeRefusesAFrameNotValidated := by
  intro f e s h
  refine ⟨execDecode_of_err s h, ?_, (onRawFrame_bytes _ f _).trans (decodeDecode_of_err h)⟩
  rw [wellFormed_decode_iff, h]
  nofun

end Sys2Proof.Machine

/-! Proofs of the parse and port obligations (spec/42_parse_and_port.md). First LAST's result against PARSE_OUT, and its five
outcomes; then the run from a RESET to the end of a candidate; then the obligations. -/
namespace Sys2Proof.Machine

/-! LAST's result is PARSE_OUT of the candidate received (R145, R148). -/

/-- On twenty bytes with their own checksum, LAST and VALIDATE make the same priority choice. -/
theorem lastOut_eq_parseOut_bytes (f : RawFrame) : lastOut 20 (xorsum f.bytes) f = parseOut f.bytes := by
  have hv := validate_bytes f
  unfold lastOut
  cases hff : firstFailing (20 == Config.frameLen) (csumOk (xorsum f.bytes) f) (syncOk f) (typeOk f) with
  | none =>
    rw [show firstFailing true _ _ _ = none from hff] at hv
    exact (parseOut_of_ok _ f hv).symm
  | some e =>
    rw [show firstFailing true _ _ _ = some e from hff] at hv
    exact (parseOut_of_err _ e hv).symm

/-- A buffer that tracks a candidate of twenty bytes holds it. -/
theorem State.Tracks.frameOf_fb {s : State} {cand : Candidate} (h : s.Tracks cand) (hlen : cand.length = 20) :
    (frameOf s.fb).bytes = cand := by
  refine List.ext_getElem (by simp [hlen]) fun a ha hac => ?_
  have hread := h.fbHolds a cand[a] (hlen ▸ hac) (List.getElem?_eq_getElem hac)
  simpa using hread

/-- What LAST presents from in-frame registers that track a candidate is PARSE_OUT of it: the registers hold the whole
candidate if it has twenty bytes, and only its count matters if it has not. -/
theorem State.Tracks.lastOut_eq_parseOut {s : State} {cand : Candidate} (h : s.Tracks cand) :
    lastOut s.cnt.val s.acc (frameOf s.fb) = parseOut cand := by
  have hcnt := h.cntCounts
  by_cases hlen : cand.length = 20
  · have hbytes := h.frameOf_fb hlen
    have hn : s.cnt.val = 20 := by omega
    rw [hn, h.accFolds, ← hbytes, lastOut_eq_parseOut_bytes]
  · rw [lastOut_of_length_ne _ _ _ (by omega), parseOut_of_err cand _ (validate_of_length_ne cand hlen), h.accFolds]
    rfl

/-- LAST ends the candidate being received with its own byte, and presents PARSE_OUT of it. -/
theorem exec_last_of_tracks {s : State} {cand : Candidate} (h : s.Tracks cand) (d : Byte) :
    exec (.last d) s = .next ((s.store d).present (parseOut (cand ++ [d]))) := by
  have hout := (h.byte d).lastOut_eq_parseOut
  exact (execLast_eq d s).trans (by rw [← hout])

/-! The five outcomes of LAST (R145). -/

section OutcomesOfLast
variable {n : Nat} {xs : Byte} {f : RawFrame}

theorem lastOut_of_csum_ne (hn : n = 20) (hcsum : ¬ xs = f.byte 19) :
    lastOut n xs f = { ok := false, err := .errCsum, xsum := xs, record := nullRecord } := by
  rw [hn, lastOut, Bool.eq_false_of_not_eq_true (mt (csumOk_iff xs f).mp hcsum)]
  rfl

theorem lastOut_of_sync_ne (hn : n = 20) (hcsum : xs = f.byte 19) (hsync : ¬ (f.byte 0 = 0xAE ∧ f.byte 1 = 0x5F)) :
    lastOut n xs f = { ok := false, err := .errSync, xsum := xs, record := nullRecord } := by
  rw [hn, lastOut, (csumOk_iff xs f).mpr hcsum, Bool.eq_false_of_not_eq_true (mt (syncOk_iff f).mp hsync)]
  rfl

theorem lastOut_of_type_ne (hn : n = 20) (hcsum : xs = f.byte 19) (hsync : f.byte 0 = 0xAE ∧ f.byte 1 = 0x5F)
    (htype : ¬ (f.byte 2 = 0x1B ∧ f.byte 3 = 0x0F)) :
    lastOut n xs f = { ok := false, err := .errFtype, xsum := xs, record := nullRecord } := by
  rw [hn, lastOut, (csumOk_iff xs f).mpr hcsum, (syncOk_iff f).mpr hsync,
    Bool.eq_false_of_not_eq_true (mt (typeOk_iff f).mp htype)]
  rfl

theorem lastOut_of_all_ok (hn : n = 20) (hcsum : xs = f.byte 19) (hsync : f.byte 0 = 0xAE ∧ f.byte 1 = 0x5F)
    (htype : f.byte 2 = 0x1B ∧ f.byte 3 = 0x0F) :
    lastOut n xs f = { ok := true, err := .errNone, xsum := xs, record := recordOf f } := by
  rw [hn, lastOut, (csumOk_iff xs f).mpr hcsum, (syncOk_iff f).mpr hsync, (typeOk_iff f).mpr htype]
  rfl

end OutcomesOfLast

@[simp] theorem lastOut_xsum (n : Nat) (xs : Byte) (f : RawFrame) : (lastOut n xs f).xsum = xs := by
  unfold lastOut
  split <;> rfl

/-- The record registers take the frame's record with `OK`, and the null record without. -/
theorem lastOut_record (n : Nat) (xs : Byte) (f : RawFrame) :
    (lastOut n xs f).record = if (lastOut n xs f).ok then recordOf f else nullRecord := by
  unfold lastOut
  split <;> rfl

/-- The outcome registers of a presented result that is known. -/
theorem State.present_outcome (s : State) {o o' : ParseOut} (h : o = o') :
    (s.present o).ok = o'.ok ∧ (s.present o).err = o'.err := by
  simp [h]

/-- A presented record's registers are the frame's bytes joined, the status code translated (R120 to R127). -/
theorem State.present_recordOf (s : State) {o : ParseOut} {f : RawFrame} {F : Nat → Byte}
    (hF : ∀ i : Fin 20, f.byte i = F i.val) (ho : o.record = recordOf f) :
    (s.present o).timestamp = (F 4 ++ F 5 ++ F 6 ++ F 7 : BitVec (8 + 8 + 8 + 8)) ∧
    (s.present o).status = (if (F 8).extractLsb' 2 6 = 0 then (F 8).extractLsb' 0 2 else 3) ∧
    (s.present o).temperatureC = (F 9 ++ F 10 : BitVec (8 + 8)) ∧ (s.present o).batteryMv = (F 11 ++ F 12 : BitVec (8 + 8)) ∧
    (s.present o).wheelX = (F 13 ++ F 14 : BitVec (8 + 8)) ∧ (s.present o).wheelY = (F 15 ++ F 16 : BitVec (8 + 8)) ∧
    (s.present o).wheelZ = (F 17 ++ F 18 : BitVec (8 + 8)) := by
  simp only [State.present_timestamp, State.present_status, State.present_temperatureC, State.present_batteryMv,
    State.present_wheelX, State.present_wheelY, State.present_wheelZ, ho, recordOf, extTs_eq, extSt_eq, extTemp_eq,
    extBatt_eq, extWx_eq, extWy_eq, extWz_eq, hF]
  exact ⟨rfl, statusRegisterCodeInBits (F 8), rfl, rfl, rfl, rfl, rfl⟩

/-- The record registers of a presented null record (R33). -/
theorem State.present_nullRecord (s : State) {o : ParseOut} (ho : o.record = nullRecord) :
    (s.present o).timestamp = 0 ∧ (s.present o).status = 3 ∧ (s.present o).temperatureC = 0 ∧ (s.present o).batteryMv = 0 ∧
    (s.present o).wheelX = 0 ∧ (s.present o).wheelY = 0 ∧ (s.present o).wheelZ = 0 := by
  rw [State.present, ho]
  exact ⟨rfl, rfl, rfl, rfl, rfl, rfl, rfl⟩

/-! Runs from a RESET. -/

/-- A run that reaches a state goes on from there. -/
theorem run_add {n : Nat} {s t : State} (m : Nat) (h : Host.Core.run Sys2Proof.core n s = .next t) :
    Host.Core.run Sys2Proof.core (n + m) s = Host.Core.run Sys2Proof.core m t := by
  induction n generalizing s with
  | zero =>
    cases h
    rw [Nat.zero_add]
  | succ n ih =>
    rw [Nat.add_right_comm]
    cases hstep : step s with
    | next u =>
      rw [run_succ _ s u hstep] at h ⊢
      exact ih h
    | fault _ | refused _ => simp only [Host.Core.run, Sys2Proof.core, hstep] at h; cases h

/-- From any state, a RESET sample and the port samples after it lead to registers that track the candidate those samples
leave open (R147); what is presented after them is still to come. -/
theorem run_reset_ports_tracks (s : State) (r : PortIn) (ps : List PortIn) (rest : List Presented) (hr : r.rst = true)
    (hin : s.inputs = .port r :: (ps.map .port ++ rest)) :
    ∃ t, Host.Core.run Sys2Proof.core (ps.length + 1) s = .next t ∧ t.inputs = rest ∧ t.Tracks (openCandidate [] ps) := by
  obtain ⟨u, hstep, hu, htrack⟩ := step_port_tracks s [] r _ hin (.inl hr)
  have hreceive : receive [] r = [] := by simp [receive, hr]
  rw [hreceive] at htrack
  obtain ⟨t, hrun, ht⟩ := run_ports_tracks ps rest u [] hu htrack
  exact ⟨t, (run_succ _ s u hstep).trans hrun, ht⟩

/-- The port pattern `011` selects LAST (R141). -/
theorem decodePort_last {l : PortIn} (hrst : l.rst = false) (hvalid : l.inValid = true) (hlast : l.inLast = true) :
    decodePort l = .last l.inData := by
  simp [decodePort, hrst, hvalid, hlast]

/-! The obligations. -/

/-- Settles O49: the run up to LAST tracks the open candidate whatever came before, and LAST from a state that tracks it
presents PARSE_OUT of that candidate with its own byte. -/
theorem portResultIsParseOut : Obligations.PortResultIsParseOut := by
  intro s r l ps hr hrst hvalid hlast
  obtain ⟨t, hrun, hin, htrack⟩ :=
    run_reset_ports_tracks (s.withPorts (r :: ps ++ [l])) r ps [.port l] hr (by simp)
  have htrack' : State.Tracks { t with inputs := [] } (openCandidate [] ps) := { htrack with }
  have hstep := step_port t l [] hin
  rw [decodePort_last hrst hvalid hlast, exec_last_of_tracks htrack'] at hstep
  exact ⟨_, (run_add 1 hrun).trans (run_succ 0 t _ hstep), State.present_done _ _, State.present_out _ _⟩

/-- Settles O12: DECODE is the one operation with a stop, and its well-formed operand is a validated frame. -/
theorem everyWellFormedOperationCompletes : Obligations.EveryWellFormedOperationCompletes :=
  exec_completes_of_wellFormed

/-- Settles O32: both arms are VALIDATE's answer, and DECODE of the accepted frame returns the same record. -/
theorem parseIsValidateThenDecode : Obligations.ParseIsValidateThenDecode := by
  intro cand s
  cases hv : validate cand with
  | err e =>
    refine ⟨_, _, execParse_of_err s hv, rfl, fun e' he => ?_, nofun⟩
    cases he
    exact ⟨rfl, rfl, rfl, rfl⟩
  | ok f =>
    refine ⟨_, _, execParse_of_ok s hv, rfl, nofun, fun g hg => ?_⟩
    cases hg
    obtain rfl := validate_ok cand f hv
    exact ⟨rfl, rfl, rfl, rfl, execDecode_of_ok s hv⟩

/-- Settles O40: LAST presents `lastOut` of the frame with its byte forwarded, and each clause fixes the first check that
fails, or the record. -/
theorem lastJudgesTheFrame : Obligations.LastJudgesTheFrame := by
  intro d s
  refine ⟨_, execLast_eq d s, ?_⟩
  intro n xs F csum sync type
  let f := frameOf (storedByte s d)
  have hread : ∀ a, Memory.read (storedByte s d) a = F a := read_storedByte s d
  have hF : ∀ i : Fin 20, f.byte i = F i.val := fun i => (frameOf_byte _ i).trans (hread i.val)
  have hcsum : csum ↔ xs = f.byte 19 := by rw [hF]; rfl
  have hsync : sync ↔ f.byte 0 = 0xAE ∧ f.byte 1 = 0x5F := by rw [hF, hF]; rfl
  have htype : type ↔ f.byte 2 = 0x1B ∧ f.byte 3 = 0x0F := by rw [hF, hF]; rfl
  rw [hcsum, hsync, htype]
  refine ⟨fun hn => State.present_outcome _ (lastOut_of_length_ne n xs f hn),
    fun hn hc => State.present_outcome _ (lastOut_of_csum_ne hn hc),
    fun hn hc hy => State.present_outcome _ (lastOut_of_sync_ne hn hc hy),
    fun hn hc hy ht => State.present_outcome _ (lastOut_of_type_ne hn hc hy ht),
    fun hn hc hy ht => State.present_outcome _ (lastOut_of_all_ok hn hc hy ht),
    fun hok => State.present_recordOf _ hF ?_, fun hno => State.present_nullRecord _ ?_,
    lastOut_xsum n xs f, rfl, rfl, rfl, hread, rfl, rfl⟩
  · exact (lastOut_record n xs f).trans (if_pos hok)
  · exact (lastOut_record n xs f).trans (if_neg (Bool.eq_false_iff.mp hno))

/-- Settles O8: the pattern's cells select the step by its first two or three bits, and every step is well formed. -/
theorem portPatternSelectsTheStep : Obligations.PortPatternSelectsTheStep := by
  intro v l d s
  have hstep : ∀ i : Instr, WellFormed i → ∃ t, exec i s = .next t := fun i => exec_completes_of_wellFormed i s
  exact ⟨rfl, rfl, rfl, rfl, hstep .reset rfl, hstep .idle rfl, hstep (.byte d) rfl, hstep (.last d) rfl⟩

/-- Settles O37: RESET reads no register, and the empty buffer reads `0x00` everywhere. -/
theorem resetFromAnyStateGivesTheResetState : Obligations.ResetFromAnyStateGivesTheResetState :=
  fun _ => ⟨rfl, Memory.read_nil⟩

/-- Settles O38: IDLE writes `DONE` alone. -/
theorem idleOnlyClearsDone : Obligations.IdleOnlyClearsDone := fun _ => rfl

/-- Settles O39: the byte is stored as `read_storedByte` says, and BYTE writes no output register but `DONE`. -/
theorem byteStoresFoldsAndCounts : Obligations.ByteStoresFoldsAndCounts :=
  fun d s => ⟨_, rfl, read_storedByte s d, rfl, bump_val s.cnt, rfl⟩

end Sys2Proof.Machine

/-! Proofs of the exception obligations (spec/60_exceptions.md). First the rejection off twenty bytes and the port steps; then
the obligations. -/
namespace Sys2Proof.Machine

/-- LAST off twenty bytes enters the length rejection: the generated checksum is presented, and no frame is looked at (R161,
R168). -/
theorem execLast_of_cnt_ne (d : Byte) (s : State) (h : s.cnt ≠ 19) :
    execLast d s = .next ((s.store d).reject .inputTypeOrLength (foldedByte s d)) := by
  have hn : (bump s.cnt).val ≠ 20 := by
    have hcnt : s.cnt.val ≠ 19 := fun hv => h (Fin.ext hv)
    rw [bump_val]
    omega
  rw [execLast_eq, lastOut_of_length_ne _ _ _ hn]
  rfl

/-- A port sample selects one of the four steps (R141). -/
theorem decodePort_format (p : PortIn) : (decodePort p).format = .step := by
  unfold decodePort
  split_ifs <;> rfl

/-- Each of the four steps completes, and leaves what is presented and what a caller holds (R39, logs 1 and 3). -/
theorem exec_step_keeps_env (i : Instr) (s : State) (hi : i.format = .step) :
    ∃ t, exec i s = .next t ∧ t.inputs = s.inputs ∧ t.ret = s.ret := by
  cases i with
  | reset => exact ⟨_, rfl, rfl, rfl⟩
  | idle => exact ⟨_, rfl, rfl, rfl⟩
  | byte d => exact ⟨_, rfl, rfl, rfl⟩
  | last d => exact ⟨_, execLast_eq d s, rfl, rfl⟩
  | _ => simp [Instr.format] at hi

/-! The obligations. -/

/-- Settles O41: off twenty bytes LAST rejects by length alone, into the buffer with its own byte stored. -/
theorem lengthRejectionIgnoresTheBuffer : Obligations.LengthRejectionIgnoresTheBuffer :=
  fun d s h => ⟨storedByte s d, read_storedByte s d, execLast_of_cnt_ne d s h⟩

/-- Settles O9: the sample is used up, and the step it selects completes and takes no other input. -/
theorem everyPortSampleGivesANextState : Obligations.EveryPortSampleGivesANextState := by
  intro s p rest h
  rw [step_port s p rest h]
  exact exec_step_keeps_env (decodePort p) { s with inputs := rest } (decodePort_format p)

end Sys2Proof.Machine

/-! Proofs of the reset-and-hazard obligations (spec/70_reset_and_hazards.md). First what one port sample adds to the
observation; then the candidate a presentation completes; then the obligations. -/
namespace Sys2Proof.Machine

/-! The states and the observation of one more step (R204). -/

theorem statesAfter_succ {s t : State} (n : Nat) (h : step s = .next t) : statesAfter (n + 1) s = t :: statesAfter n t := by
  simp only [statesAfter, h]

/-- A step adds to the observation what its state shows. -/
theorem observation_succ {s t : State} (n : Nat) (h : step s = .next t) :
    observation (n + 1) s = (observed t).toList ++ observation n t := by
  rw [observation, statesAfter_succ n h, List.filterMap_cons]
  cases observed t <;> rfl

/-! The candidates one more sample completes (R147). -/

/-- A sample completes what it completes alone; the rest of the sequence goes on from the candidate it leaves. -/
theorem completed_cons (c : Candidate) (p : PortIn) (ps : List PortIn) :
    completed c (p :: ps) = completed c [p] ++ completed (receive c p) ps := by
  simp only [completed]
  split <;> rfl

/-- A RESET sample drops the candidate being received and completes none. -/
theorem completed_cons_of_rst {p : PortIn} (c : Candidate) (ps : List PortIn) (h : p.rst = true) :
    completed c (p :: ps) = completed [] ps := by
  simp [completed, receive, h]

/-! One port sample: what it completes is what is observed. -/

/-- Only the LAST step leaves `DONE = 1`, and its result is PARSE_OUT of the candidate it completes (R148). -/
theorem exec_port_observed {p : PortIn} {s t : State} {cand : Candidate} (h : p.rst = true ∨ s.Tracks cand)
    (hexec : exec (decodePort p) s = .next t) : (observed t).toList = (completed cand [p]).map parseOut := by
  obtain ⟨rst, inValid, inLast, d⟩ := p
  match rst, inValid, inLast with
  | true, _, _ | false, false, _ | false, true, false => cases hexec; rfl
  | false, true, true =>
    have hlast := exec_last_of_tracks (h.resolve_left Bool.false_ne_true) d
    cases hlast.symm.trans hexec
    simp [observed, completed]

/-- A step on a port sample keeps the tracking, and shows the result of the candidate the sample completes, if any. -/
theorem step_port_observed (s : State) (cand : Candidate) (p : PortIn) (rest : List Presented)
    (hin : s.inputs = .port p :: rest) (h : p.rst = true ∨ s.Tracks cand) :
    ∃ t, step s = .next t ∧ t.inputs = rest ∧ t.Tracks (receive cand p) ∧
      (observed t).toList = (completed cand [p]).map parseOut := by
  obtain ⟨t, hstep, hrest, htrack⟩ := step_port_tracks s cand p rest hin h
  have hexec := (step_port s p rest hin).symm.trans hstep
  exact ⟨t, hstep, hrest, htrack, exec_port_observed (h.imp_right fun hs => { hs with }) hexec⟩

/-! A run over port samples. -/

/-- The observation of a run over these port samples is PARSE_OUT of each candidate they complete, and no step stops. -/
structure ObservesCompleted (s : State) (cand : Candidate) (ps : List PortIn) : Prop where
  takesEveryStep : (statesAfter ps.length s).length = ps.length
  observes : observation ps.length s = (completed cand ps).map parseOut

/-- A first step that shows what its sample completes, before a run that observes what the others complete. -/
theorem ObservesCompleted.cons {s t : State} {cand : Candidate} {p : PortIn} {ps : List PortIn} (hstep : step s = .next t)
    (hobs : (observed t).toList = (completed cand [p]).map parseOut) (h : ObservesCompleted t (receive cand p) ps) :
    ObservesCompleted s cand (p :: ps) where
  takesEveryStep := by rw [List.length_cons, statesAfter_succ _ hstep, List.length_cons, h.takesEveryStep]
  observes := by rw [List.length_cons, observation_succ _ hstep, hobs, h.observes, completed_cons cand p ps, List.map_append]

theorem State.Tracks.observesCompleted {s : State} {cand : Candidate} (h : s.Tracks cand) (ps : List PortIn)
    (hin : s.inputs = ps.map .port) : ObservesCompleted s cand ps := by
  induction ps generalizing s cand with
  | nil => exact ⟨rfl, rfl⟩
  | cons p ps ih =>
    obtain ⟨t, hstep, hrest, htrack, hobs⟩ := step_port_observed s cand p _ hin (.inr h)
    exact .cons hstep hobs (ih htrack hrest)

/-! Presenting a candidate (R203). -/

@[simp] theorem length_presenting (c : Candidate) : (presenting c).length = c.length := by
  induction c using presenting.induct with
  | case1 | case2 => rfl
  | case3 d ds _ ih => simpa [presenting] using ih

/-- The samples that present a candidate's remaining bytes complete it, and leave the block ready for the next. -/
theorem completed_presenting_append (c rest : Candidate) (ps : List PortIn) (h : rest ≠ []) :
    completed c (presenting rest ++ ps) = (c ++ rest) :: completed [] ps := by
  induction rest using presenting.induct generalizing c with
  | case1 => exact absurd rfl h
  | case2 d => rfl
  | case3 d ds hds ih =>
    have hbyte : completed c (presenting (d :: ds) ++ ps) = completed (c ++ [d]) (presenting ds ++ ps) := by
      rw [presenting]
      · rfl
      · exact hds
    rw [hbyte, ih (c ++ [d]) hds, List.append_assoc, List.singleton_append]

/-- Two candidates presented one after the other are the two completed. -/
theorem completed_presenting_presenting {a b : Candidate} (ha : a ≠ []) (hb : b ≠ []) :
    completed [] (presenting a ++ presenting b) = [a, b] := by
  have hsecond := completed_presenting_append [] b [] hb
  rw [List.append_nil] at hsecond
  rw [completed_presenting_append [] a _ ha, hsecond]
  rfl

/-! PARSE_OUT of the two candidates of R203. -/

theorem parseOut_of_length_ne (c : Candidate) (h : c.length ≠ 20) :
    parseOut c = { ok := false, err := .errLen, xsum := xorsum c, record := nullRecord } :=
  parseOut_of_err c _ (validate_of_length_ne c h)

/-- A right header and fifteen payload bytes with the generated checksum are accepted with that checksum. -/
theorem exists_parseOut_of_payload {P : List Byte} (hP : P.length = 15) :
    ∃ rec, parseOut ([0xAE, 0x5F, 0x1B, 0x0F] ++ P ++ [xorsum ([0xAE, 0x5F, 0x1B, 0x0F] ++ P)]) =
      { ok := true, err := .errNone, xsum := xorsum ([0xAE, 0x5F, 0x1B, 0x0F] ++ P), record := rec } := by
  obtain ⟨f, hf⟩ := exists_carries (xorsum ([0xAE, 0x5F, 0x1B, 0x0F] ++ P)) hP
  have hout := parseOut_of_ok f.bytes f (hf.validate_eq_ok rfl)
  rw [hf.xorsum_bytes, hf.bytes] at hout
  exact ⟨recordOf f, hout⟩

/-! The obligations. -/

/-- Settles O50: RESET shows nothing and tracks the empty candidate, and from there each sample shows what it completes. -/
theorem observationIsParseOutOfEachCandidate : Obligations.ObservationIsParseOutOfEachCandidate := by
  intro s r ps hr
  obtain ⟨t, hstep, hrest, htrack, hobs⟩ := step_port_observed (s.withPorts (r :: ps)) [] r (ps.map .port) rfl (.inl hr)
  have hrun : ObservesCompleted (s.withPorts (r :: ps)) [] (r :: ps) := .cons hstep hobs (htrack.observesCompleted ps hrest)
  exact ⟨hrun.takesEveryStep, hrun.observes.trans (by rw [completed_cons_of_rst [] ps hr])⟩

/-- Settles O52: the run completes exactly the two candidates; the first has nineteen bytes, and its `XSUM` is the checksum
byte that makes the second accepted. -/
theorem checksumGenerationThenAcceptance : Obligations.ChecksumGenerationThenAcceptance := by
  intro s r P hr hP bytes
  have hbytes : bytes.length = 19 := by simp [bytes, hP]
  obtain ⟨rec, haccepted⟩ := exists_parseOut_of_payload hP
  have hsamples : (presenting bytes ++ presenting (bytes ++ [xorsum bytes])).length = 39 := by simp [hbytes]
  have hcompleted : completed [] (presenting bytes ++ presenting (bytes ++ [xorsum bytes])) =
      [bytes, bytes ++ [xorsum bytes]] :=
    completed_presenting_presenting (List.ne_nil_of_length_pos (by omega)) (by simp)
  obtain ⟨-, hobs⟩ := observationIsParseOutOfEachCandidate s r
    (presenting bytes ++ presenting (bytes ++ [xorsum bytes])) hr
  rw [hsamples, hcompleted, List.map_cons, List.map_singleton, parseOut_of_length_ne bytes (by omega), haccepted] at hobs
  exact ⟨xorsum bytes, rec, hobs⟩

end Sys2Proof.Machine

/-! Proof of the obligation about the step as such (spec/42_parse_and_port.md section 2, spec/10_state.md section 1). First what
the input at hand is and what using it up leaves; then the obligation. -/
namespace Sys2Proof.Machine

theorem fetched_of_inputs_cons {s : State} {w : Presented} {rest : List Presented} (h : s.inputs = w :: rest) :
    fetched s = w := by
  rw [fetched, h, List.headD_cons]

theorem fetched_of_inputs_nil {s : State} (h : s.inputs = []) : fetched s = quietPort := by
  rw [fetched, h, List.headD_nil]

theorem State.consume_of_inputs_cons {s : State} {w : Presented} {rest : List Presented} (h : s.inputs = w :: rest) :
    s.consume = { s with inputs := rest } := by
  rw [State.consume, h, List.tail_cons]

theorem State.consume_of_inputs_nil {s : State} (h : s.inputs = []) : s.consume = s := by
  rw [State.consume, h, List.tail_nil, ← h]

/-- With `rst` and `in_valid` low the port selects IDLE (R141). -/
theorem decode_quietPort : decode quietPort = .ok .idle := rfl

/-- Settles O7: the decoded operation runs on the state with its input used up, and with nothing presented the port is quiet and
no input is there to use up. -/
theorem stepRunsThePresentedOperation : Obligations.StepRunsThePresentedOperation := by
  intro s
  refine ⟨fun i hdec => step_of_decode_ok rfl hdec,
    fun w rest hin => ⟨fetched_of_inputs_cons hin, State.consume_of_inputs_cons hin⟩, fun hin => ?_⟩
  calc step s = exec .idle s.consume := step_of_decode_ok (fetched_of_inputs_nil hin) decode_quietPort
    _ = exec .idle s := by rw [State.consume_of_inputs_nil hin]

end Sys2Proof.Machine
